-- ==== Sys2Proof/Word.lean ====
section
/-!
DEFINITION. The word types of the block: the widths of R8 (00_scope.md) and the pair of marks and
spaces that every sequence of the sequencer is made of (R12).
-/

namespace Sys2Proof

/-- A 24-bit command word, format CW24 (R51). -/
abbrev CmdWord := BitVec 24

/-- A 16-bit word of the command port (REQ16, R58) or of a response or publish output (RSP16, R60). -/
abbrev PortWord := BitVec 16

/-- A target temperature as stored: 8 bits, two's complement, degrees Celsius (R15). -/
abbrev Temp := BitVec 8

/-- A sequencer position, format SEQ9 (R18, R61). -/
abbrev SeqPos := BitVec 9

/-- A mark of `mark` microseconds followed by a space of `space` microseconds (R12). Durations are
non-negative integers (R11), so they are numbers, not words. -/
structure Pair where
  mark : Nat
  space : Nat
  deriving DecidableEq, Repr

/-- How long a pair lasts, in microseconds. -/
def Pair.duration (p : Pair) : Nat := p.mark + p.space

end Sys2Proof
end

