-- ==== Sys2Proof/Syntax.lean ====
section
/-!
DEFINITION. The operation set of the block (R5, 00_scope.md): one constructor for each of the 27
rows of spec/opcode_table.json.
-/

namespace Sys2Proof

/-- The operating modes {OFF, AUTO, COOL, HEAT} (R14). DESIGN CHOICE, safe: an inductive in place of
the 2-bit code, whose four patterns are all legal: log 19. -/
inductive Mode where
  | off
  | auto
  | cool
  | heat
  deriving DecidableEq, Repr

/-- The `bit_order` operand of SER (R38, R75). -/
inductive BitOrder where
  | msb
  | lsb
  deriving DecidableEq, Repr

/-- The operations of the block. The operands are those of the rule each docstring cites. -/
inductive Instr where
  /-- `COMPOSE.OFF` (R82). -/
  | composeOff
  /-- `COMPOSE.AUTO(T)` (R83). -/
  | composeAuto (T : Int)
  /-- `COMPOSE.COOL(T)` (R84). -/
  | composeCool (T : Int)
  /-- `COMPOSE.HEAT(T)` (R85). -/
  | composeHeat (T : Int)
  /-- `INIT` (R104): the restored state, if the host found one (`e` = 1). -/
  | init (prior : Option (Mode × Temp))
  /-- `APPLY` (R106): the fields that are present (`e`, `g`). -/
  | apply (mode : Option Mode) (temp : Option Temp)
  /-- `STATE` (R109). -/
  | state
  /-- `CAPS` (R110). -/
  | caps
  /-- `EMIT.HDR` (R100): the header beat of frame `f`. -/
  | emitHdr (f : Bool)
  /-- `EMIT.BIT` (R100): frame `f`, byte `j`, complemented copy `v`, bits already sent `p`. -/
  | emitBit (f : Bool) (j : BitVec 2) (v : Bool) (p : BitVec 3)
  /-- `EMIT.FTR` (R100): the footer beat of frame `f`. -/
  | emitFtr (f : Bool)
  /-- `SYM.0` (R56). -/
  | sym0
  /-- `SYM.1` (R56). -/
  | sym1
  /-- `SYM.HDR` (R91). -/
  | symHdr
  /-- `SYM.FTR` (R92). -/
  | symFtr
  /-- `CLAMP(T)` (R70). -/
  | clamp (T : Int)
  /-- `TLUT(i)` (R72). -/
  | tlut (i : Int)
  /-- `TCODE(T)` (R74). -/
  | tcode (T : Int)
  /-- `SER` (R75): four durations, the value, the bit count, the bit order. -/
  | ser (oneMark oneSpace zeroMark zeroSpace value bitCount : Nat) (order : BitOrder)
  /-- `COMPOSE(m, T)` (R81). -/
  | compose (m : Mode) (T : Int)
  /-- `SETTEMP(w, T)` (R86). -/
  | setTemp (w : CmdWord) (T : Int)
  /-- `SENDBYTE(b)` (R93). -/
  | sendByte (b : BitVec 8)
  /-- `PAYLOAD(cw)` (R94). -/
  | payload (cw : CmdWord)
  /-- `FRAME(cw)` (R95). -/
  | frame (cw : CmdWord)
  /-- `TRAIN(cw)` (R96). -/
  | train (cw : CmdWord)
  /-- `XMIT(cw)` (R98). -/
  | xmit (cw : CmdWord)
  /-- `NEXT(SEQ)` (R101). -/
  | next (q : SeqPos)
  deriving DecidableEq, Repr

end Sys2Proof
end

