-- ==== Sys2Proof/Machine/Constants.lean ====
section
/-!
DEFINITION. The constants of the block: the protocol constants of R7 (00_scope.md), the Temperature
Code Table (R21, R71), the templates and masks (R22), the timing profile (R23), and the MODE codes
of the ports (R14). They have no reset (R30).
-/

namespace Sys2Proof

/-- The register and port code of a mode (R14): OFF 0, AUTO 1, COOL 2, HEAT 3. -/
def Mode.toBits : Mode → BitVec 2
  | .off => 0
  | .auto => 1
  | .cool => 2
  | .heat => 3

/-- The mode of a register or port code (R14). All four patterns are legal. -/
def Mode.ofBits (b : BitVec 2) : Mode :=
  if b = 0 then .off else if b = 1 then .auto else if b = 2 then .cool else .heat

namespace Machine

/-- The Temperature Code Table (R71): index 0 is 17 degrees, index 13 is 30 degrees. The literals of
the table, never a formula (R73). -/
def lut : List (BitVec 4) :=
  [0b0000#4, 0b0001#4, 0b0011#4, 0b0010#4, 0b0110#4, 0b0111#4, 0b0101#4,
   0b0100#4, 0b1100#4, 0b1101#4, 0b1001#4, 0b1000#4, 0b1010#4, 0b1011#4]

/-- `TEMP_MIN` (R7). -/
def tempMin : Int := 17
/-- `TEMP_MAX` (R7). -/
def tempMax : Int := 30

/-- `CW_OFF` (R22). -/
def cwOff : CmdWord := 0xB27BE0#24
/-- `CW_BASE` (R22): the COOL and HEAT template. -/
def cwBase : CmdWord := 0xB2BFC8#24
/-- `CW_AUTO` (R22): the AUTO template. -/
def cwAuto : CmdWord := 0xB21FC8#24
/-- `MODE_MASK` (R22): word bits 3:2. -/
def modeMask : CmdWord := 0x00000C#24
/-- `TEMP_MASK` (R22): word bits 7:4. -/
def tempMask : CmdWord := 0x0000F0#24
/-- The wire code of COOL in word bits 3:2 (R52). -/
def modeCool : BitVec 2 := 0b00#2
/-- The wire code of HEAT in word bits 3:2 (R52). -/
def modeHeat : BitVec 2 := 0b11#2

/-- `TICK_US` (R7). -/
def tickUs : Nat := 560
/-- `BIT_MARK_TICKS` in microseconds (R7). -/
def bitMarkUs : Nat := 1 * tickUs
/-- `ONE_SPACE_TICKS` in microseconds (R7). -/
def oneSpaceUs : Nat := 3 * tickUs
/-- `ZERO_SPACE_TICKS` in microseconds (R7). -/
def zeroSpaceUs : Nat := 1 * tickUs
/-- `HEADER_MARK_TICKS` in microseconds (R7). -/
def headerMarkUs : Nat := 8 * tickUs
/-- `HEADER_SPACE_TICKS` in microseconds (R7). -/
def headerSpaceUs : Nat := 8 * tickUs
/-- `FOOTER_MARK_TICKS` in microseconds (R7). -/
def footerMarkUs : Nat := 1 * tickUs
/-- `MIN_GAP_TICKS` in microseconds (R7). -/
def minGapUs : Nat := 9 * tickUs
/-- `CARRIER_HZ` (R7). -/
def carrierHz : Nat := 38000

/-- The header pair (R91). -/
def headerPair : Pair := ⟨headerMarkUs, headerSpaceUs⟩
/-- The footer pair (R92). -/
def footerPair : Pair := ⟨footerMarkUs, minGapUs⟩
/-- The pair of a one bit, format SYM (R56). -/
def onePair : Pair := ⟨bitMarkUs, oneSpaceUs⟩
/-- The pair of a zero bit, format SYM (R56). -/
def zeroPair : Pair := ⟨bitMarkUs, zeroSpaceUs⟩
/-- The pair of one data bit, format SYM (R56). -/
def symbol (b : Bool) : Pair := if b then onePair else zeroPair

end Machine

end Sys2Proof
end

