-- ==== Sys2Proof/Machine/Operands.lean ====
section
/-!
DEFINITION. Operand assembly: the clamp and the table read (R62, R70 to R74), the fields of the
command word (R63, R84 to R86), its bytes and bits in the order of the wire (R36, R37, R63), and the
serializer that turns a value into pairs (R75).
-/

namespace Sys2Proof.Machine

/-! ### Temperature (R62) -/

/-- `sint_8` (R11): the stored pattern as a signed integer. -/
def sint8 (t : Temp) : Int := t.toInt

/-- `CLAMP(T)` (R70): two-sided. -/
def clampTemp (T : Int) : Int :=
  if T < tempMin then tempMin else if tempMax < T then tempMax else T

theorem clampTemp_bounds (T : Int) : 17 ≤ clampTemp T ∧ clampTemp T ≤ 30 := by
  unfold clampTemp tempMin tempMax
  split
  · omega
  · split <;> omega

/-- `MemRead(LUT, i)` (R12, R72): defined only for `0 <= i <= 13`. -/
def lutRead (i : Int) : Option (BitVec 4) :=
  if 0 ≤ i ∧ i ≤ 13 then lut[i.toNat]? else none

theorem lutRead_isSome (i : Int) (h : 0 ≤ i ∧ i ≤ 13) : (lutRead i).isSome = true := by
  have hl : i.toNat < lut.length := by simp only [lut, List.length_cons, List.length_nil]; omega
  simp only [lutRead, h, and_self, if_true, List.getElem?_eq_getElem hl, Option.isSome_some]

/-- `TCODE(T) = TLUT(CLAMP(T) - 17)` (R74): total, because the clamp comes first (R40). -/
def tempCode (T : Int) : BitVec 4 :=
  (lutRead (clampTemp T - 17)).get
    (lutRead_isSome _ (by have := clampTemp_bounds T; omega))

/-! ### Fields of the command word (R62, R63) -/

/-- `code << 4` as a 24-bit word: the code with its bit 3 at word bit 7 (R62). -/
def tempField (c : BitVec 4) : CmdWord := c.setWidth 24 <<< (4 : Nat)

/-- `mcode << 2` as a 24-bit word (R63). -/
def modeField (c : BitVec 2) : CmdWord := c.setWidth 24 <<< (2 : Nat)

/-- Clear then set bits 7:4: `(w & ~TEMP_MASK) | (code << 4)` (R62). -/
def putTempField (w : CmdWord) (c : BitVec 4) : CmdWord :=
  (w &&& ~~~tempMask) ||| tempField c

/-- Clear then set bits 3:2: `(w & ~MODE_MASK) | (mcode << 2)` (R63). -/
def putModeField (w : CmdWord) (c : BitVec 2) : CmdWord :=
  (w &&& ~~~modeMask) ||| modeField c

/-! ### Bytes and bits in the order of the wire (R63) -/

/-- Byte `j` of the word, most significant first: `(cw >> (16 - 8*j)) & 0xFF`. -/
def wordByte (cw : CmdWord) (j : Nat) : BitVec 8 := (cw >>> (16 - 8 * j)).setWidth 8

/-- Bit `p` of a byte counted from the first sent: `(byte >> (7 - p)) & 1`. -/
def sentBit (b : BitVec 8) (p : Nat) : Bool := (b >>> (7 - p)).getLsbD 0

/-! ### The serializer (R75) -/

/-- `(value >> i) & 1`. -/
def bitOf (value i : Nat) : Bool := (value >>> i) &&& 1 = 1

/-- `for i = n-1 downto 0`. -/
def bitsMsb (value : Nat) : Nat → List Bool
  | 0 => []
  | n + 1 => bitOf value n :: bitsMsb value n

/-- `for i = 0 to n-1`. -/
def bitsLsb (value : Nat) : Nat → List Bool
  | 0 => []
  | n + 1 => bitsLsb value n ++ [bitOf value n]

/-- The bits that SER scans, first to last. -/
def serBits (value bitCount : Nat) : BitOrder → List Bool
  | .msb => bitsMsb value bitCount
  | .lsb => bitsLsb value bitCount

/-- The pairs that `SER` emits (R75): one for each bit. -/
def serPairs (oneMark oneSpace zeroMark zeroSpace value bitCount : Nat) (order : BitOrder) : List Pair :=
  (serBits value bitCount order).map fun b => if b then ⟨oneMark, oneSpace⟩ else ⟨zeroMark, zeroSpace⟩

end Sys2Proof.Machine
end

