-- ==== Sys2Proof/Machine/Position.lean ====
section
/-!
DEFINITION. The sequencer position SEQ, format SEQ9 (R18 of 10_state.md, R61 of 30_encoding.md): its
fields, its legal patterns (R66), its flat beat number (R18) and its successor (R101 of
43_transmission_sequencer.md).
-/

namespace Sys2Proof.Machine

/-- `{f, ph[1:0], j[1:0], v, p[2:0]}` (R18). -/
def packSeq (f : Bool) (ph j : BitVec 2) (v : Bool) (p : BitVec 3) : SeqPos :=
  BitVec.ofBool f ++ ph ++ j ++ BitVec.ofBool v ++ p

/-- Bit 8: the frame number, 0 the primary send, 1 the repeat. -/
def seqF (q : SeqPos) : Bool := q.getLsbD 8
/-- Bits 7:6: the phase. -/
def seqPh (q : SeqPos) : BitVec 2 := q.extractLsb' 6 2
/-- Bits 5:4: the byte number. -/
def seqJ (q : SeqPos) : BitVec 2 := q.extractLsb' 4 2
/-- Bit 3: the complemented copy is being sent. -/
def seqV (q : SeqPos) : Bool := q.getLsbD 3
/-- Bits 2:0: bits of the current copy already sent. -/
def seqP (q : SeqPos) : BitVec 3 := q.extractLsb' 0 3

/-- The phases of R18. -/
def phHeader : BitVec 2 := 0b00#2
def phData : BitVec 2 := 0b01#2
def phFooter : BitVec 2 := 0b10#2

/-- The position of a header, of a footer and of a data bit (R61). -/
def hdrPos (f : Bool) : SeqPos := packSeq f phHeader 0 false 0
def ftrPos (f : Bool) : SeqPos := packSeq f phFooter 0 false 0
def bitPos (f : Bool) (j : BitVec 2) (v : Bool) (p : BitVec 3) : SeqPos := packSeq f phData j v p

/-- The 100 patterns that R66 leaves: header and footer with `j`, `v`, `p` zero, data with `j` not 3. -/
def legalPos (q : SeqPos) : Bool :=
  if seqPh q = phHeader ∨ seqPh q = phFooter then q.extractLsb' 0 6 = 0#6
  else if seqPh q = phData then seqJ q ≠ 3
  else false

/-- The flat beat number `n` of R18. -/
def flatPos (q : SeqPos) : Nat :=
  50 * (seqF q).toNat +
    (if seqPh q = phHeader then 0
     else if seqPh q = phData then 1 + 16 * (seqJ q).toNat + 8 * (seqV q).toNat + (seqP q).toNat
     else 49)

/-- What NEXT answers (R101): a position, or the end of the train. -/
inductive Successor where
  | goto (q : SeqPos)
  | endOfTrain
  deriving DecidableEq, Repr

/-- `NEXT` (R101), in the order of the rule's lines; no value on a pattern R66 gives no behaviour. -/
def nextPos (q : SeqPos) : Option Successor :=
  if legalPos q then
    if seqPh q = phHeader then some (.goto (bitPos (seqF q) 0 false 0))
    else if seqPh q = phData then
      if seqP q ≠ 7 then some (.goto (bitPos (seqF q) (seqJ q) (seqV q) (seqP q + 1)))
      else if seqV q = false then some (.goto (bitPos (seqF q) (seqJ q) true 0))
      else if seqJ q ≠ 2 then some (.goto (bitPos (seqF q) (seqJ q + 1) false 0))
      else some (.goto (ftrPos (seqF q)))
    else if seqF q = false then some (.goto (hdrPos true))
    else some .endOfTrain
  else none

end Sys2Proof.Machine
end

