-- ==== Sys2Proof/WellFormed.lean ====
section
/-!
DEFINITION. When an instruction is well formed: its operands are values its rule gives a meaning to.
Three operations have operands that their rule excludes: TLUT (R72), EMIT.BIT (R61, R66) and NEXT
(R66). Every other operation is total on its operands.
-/

namespace Sys2Proof

/-- R72: the index is in 0..13. R61: `jj` is 00, 01 or 10. R66: the position is one of the 100. -/
def Instr.wellFormed : Instr → Bool
  | .composeOff => true
  | .composeAuto _ => true
  | .composeCool _ => true
  | .composeHeat _ => true
  | .init _ => true
  | .apply _ _ => true
  | .state => true
  | .caps => true
  | .emitHdr _ => true
  | .emitBit _ j _ _ => j ≠ 3
  | .emitFtr _ => true
  | .sym0 => true
  | .sym1 => true
  | .symHdr => true
  | .symFtr => true
  | .clamp _ => true
  | .tlut i => 0 ≤ i ∧ i ≤ 13
  | .tcode _ => true
  | .ser _ _ _ _ _ _ _ => true
  | .compose _ _ => true
  | .setTemp _ _ => true
  | .sendByte _ => true
  | .payload _ => true
  | .frame _ => true
  | .train _ => true
  | .xmit _ => true
  | .next q => Machine.legalPos q

/-- A temperature that a CW24 word can name: one of the 14 degrees of the table (R53). -/
def tempEncodable (T : Int) : Bool := 17 ≤ T ∧ T ≤ 30

/-- The well-formed instructions that have a bit pattern (R54, R59, R61) and whose operands are the
ones that the pattern names. The rows of format SYM and INTERNAL have no bit pattern. -/
def Instr.encodable : Instr → Bool
  | .composeOff => true
  | .composeAuto T => tempEncodable T
  | .composeCool T => tempEncodable T
  | .composeHeat T => tempEncodable T
  | .init _ => true
  | .apply _ _ => true
  | .state => true
  | .caps => true
  | .emitHdr _ => true
  | .emitBit _ j _ _ => j ≠ 3
  | .emitFtr _ => true
  | .sym0 => false
  | .sym1 => false
  | .symHdr => false
  | .symFtr => false
  | .clamp _ => false
  | .tlut _ => false
  | .tcode _ => false
  | .ser _ _ _ _ _ _ _ => false
  | .compose _ _ => false
  | .setTemp _ _ => false
  | .sendByte _ => false
  | .payload _ => false
  | .frame _ => false
  | .train _ => false
  | .xmit _ => false
  | .next _ => false

end Sys2Proof
end

