-- ==== Sys2Proof/Decode.lean ====
section
/-!
DEFINITION. The three encodings that are read as instructions: the request word REQ16 (R58, R59), the
sequencer position SEQ9 (R61) and the command word CW24 (R54), each with its decoder, total and
rejecting by name, and then the encoder.
-/

namespace Sys2Proof

/-- A word of one of the three formats. The format is known from where the word stands: the command
port, the register SEQ, or the wire; no word carries a tag. -/
inductive Code where
  | cw24 (w : CmdWord)
  | req16 (w : PortWord)
  | seq9 (q : SeqPos)
  deriving DecidableEq, Repr

/-- Why a decoder gives no instruction. -/
inductive Reject where
  /-- A request word with bits 9:8 not `0b00` (R67). -/
  | reservedRequest
  /-- A position outside the 100 of R66. -/
  | unreachablePosition
  /-- A 24-bit word that is none of the 43 of R54 (R64, R89). -/
  | notACommandWord
  deriving DecidableEq, Repr

/-! ### Fields of REQ16 (R58) -/

def reqOp (w : PortWord) : BitVec 2 := w.extractLsb' 14 2
def reqE (w : PortWord) : Bool := w.getLsbD 13
def reqMode (w : PortWord) : Mode := Mode.ofBits (w.extractLsb' 11 2)
def reqG (w : PortWord) : Bool := w.getLsbD 10
def reqZ (w : PortWord) : BitVec 2 := w.extractLsb' 8 2
def reqTemp (w : PortWord) : Temp := w.extractLsb' 0 8

/-- A field that is present or left out (R58: "the question marks"). -/
def present {α : Type} (here : Bool) (a : α) : Option α := if here then some a else none

/-- The request opcode map (R59). -/
def decodeReq (w : PortWord) : Except Reject Instr :=
  if reqZ w ≠ 0#2 then .error .reservedRequest
  else if reqOp w = 0#2 then .ok (.init (present (reqE w) (reqMode w, reqTemp w)))
  else if reqOp w = 1#2 then .ok (.apply (present (reqE w) (reqMode w)) (present (reqG w) (reqTemp w)))
  else if reqOp w = 2#2 then .ok .state
  else .ok .caps

/-- The micro-step that a sequencer position selects (R61). -/
def decodeSeq (q : SeqPos) : Except Reject Instr :=
  if Machine.legalPos q = false then .error .unreachablePosition
  else if Machine.seqPh q = Machine.phHeader then .ok (.emitHdr (Machine.seqF q))
  else if Machine.seqPh q = Machine.phData then
    .ok (.emitBit (Machine.seqF q) (Machine.seqJ q) (Machine.seqV q) (Machine.seqP q))
  else .ok (.emitFtr (Machine.seqF q))

/-- The temperature that a code of the table stands for (R71); none for `1110` and `1111` (R65). -/
def tempOfCode (c : BitVec 4) : Option Int :=
  (Machine.lut.findIdx? (· == c)).map fun i => 17 + (i : Int)

/-- The code of a temperature in 17..30 (R71), and of no other. -/
def codeOfTemp (T : Int) : Option (BitVec 4) :=
  if tempEncodable T then Machine.lut[(T - 17).toNat]? else none

/-- The mask of the three patterns with a temperature field (R54). -/
def cwPatternMask : CmdWord := 0xFFFF0F#24

/-- The command words of R54: the composition that makes the word. -/
def decodeCw (w : CmdWord) : Except Reject Instr :=
  if w = 0xB27BE0#24 then .ok .composeOff
  else match tempOfCode (w.extractLsb' 4 4) with
    | none => .error .notACommandWord
    | some T =>
      if w &&& cwPatternMask = 0xB21F08#24 then .ok (.composeAuto T)
      else if w &&& cwPatternMask = 0xB2BF00#24 then .ok (.composeCool T)
      else if w &&& cwPatternMask = 0xB2BF0C#24 then .ok (.composeHeat T)
      else .error .notACommandWord

/-- The decoder of a word of a known format. -/
def decode : Code → Except Reject Instr
  | .cw24 w => decodeCw w
  | .req16 w => decodeReq w
  | .seq9 q => decodeSeq q

/-! ### The encoder -/

/-- `{op, e, mode, g, z, temp}` with `z` = 0 (R58, R69). -/
def packReq (op : BitVec 2) (e : Bool) (mode : BitVec 2) (g : Bool) (temp : Temp) : PortWord :=
  op ++ BitVec.ofBool e ++ mode ++ BitVec.ofBool g ++ 0#2 ++ temp

/-- The request word of INIT; ignored bits are 0 (R69). -/
def initWord (prior : Option (Mode × Temp)) : PortWord :=
  match prior with
  | none => packReq 0 false 0 false 0
  | some (m, t) => packReq 0 true m.toBits false t

/-- The request word of APPLY; ignored bits are 0 (R69). -/
def applyWord (mode : Option Mode) (temp : Option Temp) : PortWord :=
  packReq 1 mode.isSome ((mode.map Mode.toBits).getD 0) temp.isSome (temp.getD 0)

/-- The request word of STATE (R69). -/
def stateReqWord : PortWord := packReq 2 false 0 false 0
/-- The request word of CAPS (R69). -/
def capsReqWord : PortWord := packReq 3 false 0 false 0

/-- A pattern of R54 with its temperature code in bits 7:4. -/
def cwWithCode (pattern : CmdWord) (T : Int) : Option Code :=
  (codeOfTemp T).map fun c => .cw24 (pattern ||| Machine.tempField c)

/-- The word of an encodable instruction, from the tables of R54, R59 and R61. -/
def encode : Instr → Option Code
  | .composeOff => some (.cw24 0xB27BE0#24)
  | .composeAuto T => cwWithCode 0xB21F08#24 T
  | .composeCool T => cwWithCode 0xB2BF00#24 T
  | .composeHeat T => cwWithCode 0xB2BF0C#24 T
  | .init prior => some (.req16 (initWord prior))
  | .apply m t => some (.req16 (applyWord m t))
  | .state => some (.req16 stateReqWord)
  | .caps => some (.req16 capsReqWord)
  | .emitHdr f => some (.seq9 (Machine.hdrPos f))
  | .emitBit f j v p => if j ≠ 3 then some (.seq9 (Machine.bitPos f j v p)) else none
  | .emitFtr f => some (.seq9 (Machine.ftrPos f))
  | .sym0 => none
  | .sym1 => none
  | .symHdr => none
  | .symFtr => none
  | .clamp _ => none
  | .tlut _ => none
  | .tcode _ => none
  | .ser _ _ _ _ _ _ _ => none
  | .compose _ _ => none
  | .setTemp _ _ => none
  | .sendByte _ => none
  | .payload _ => none
  | .frame _ => none
  | .train _ => none
  | .xmit _ => none
  | .next _ => none

/-! ### The table's numbering -/

/-- A request word as the assembler writes it: every ignored bit 0 (R69). -/
def assembledReq (w : PortWord) : Bool :=
  match decodeReq w with
  | .ok i => encode i = some (.req16 w)
  | .error _ => false

/-- The word that `w` is when spec/opcode_table.json numbers it with `nbits` bits. A row of format
SEQ9 has 9 bits and so, in whole bytes, as many as a row of format REQ16: with 16 bits a word the
assembler writes is a request, any other pattern of R61 is a position, and the rest are requests.
The machine never uses this function to choose a format. DESIGN CHOICE, unsafe: log 13. -/
def tableCode (nbits w : Nat) : Option Code :=
  if nbits ≤ 9 then if w < 512 then some (.seq9 (BitVec.ofNat 9 w)) else none
  else if nbits ≤ 16 then
    if 65536 ≤ w then none
    else if assembledReq (BitVec.ofNat 16 w) then some (.req16 (BitVec.ofNat 16 w))
    else if w < 512 && Machine.legalPos (BitVec.ofNat 9 w) then some (.seq9 (BitVec.ofNat 9 w))
    else some (.req16 (BitVec.ofNat 16 w))
  else if nbits ≤ 24 then if w < 16777216 then some (.cw24 (BitVec.ofNat 24 w)) else none
  else none

/-- What the decoder reads from a word of spec/opcode_table.json. -/
def decodeTableWord (nbits w : Nat) : Option Instr :=
  match tableCode nbits w with
  | none => none
  | some c =>
    match decode c with
    | .ok i => some i
    | .error _ => none

end Sys2Proof
end

