-- ==== Sys2Proof/Config.lean ====
section
/-!
DEFINITION. What the spec leaves open: the parameters of R9 (00_scope.md) and the values it calls
unspecified. Each is an opaque constant without a body, so no proof can see what it is.
-/

namespace Sys2Proof.Config

/-- `TEMP_DEFAULT` (R9, R27): an unspecified signed 8-bit value, drawn afresh at each reset and at
each INIT without a restored state (U1). The argument counts the draws. DESIGN CHOICE, safe: log 1. -/
opaque tempDefault : Nat → BitVec 8

/-- What CWL holds while BUSY is 0 and after reset (R19, R28, U5): any value. The argument counts
the draws. DESIGN CHOICE, safe: log 2. -/
opaque idleWord : Nat → BitVec 24

/-- `SUPPORTS_COOL` (R9, R20): a constant of the instance. DESIGN CHOICE, safe: log 4. -/
opaque supportsCool : Bool

/-- `SUPPORTS_HEAT` (R9, R20): a constant of the instance. DESIGN CHOICE, safe: log 4. -/
opaque supportsHeat : Bool

end Sys2Proof.Config
end

