-- ==== Sys2Proof/Machine/State.lean ====
section
/-!
DEFINITION. The state of the block (R13, 10_state.md), its inputs and outputs held as plain data
(R25), the reasons a step can stop, and the state right after reset (R31).
-/

namespace Sys2Proof.Machine

/-- One beat on the transmit port, format TXB (R57). -/
structure Beat where
  first : Bool
  last : Bool
  markUs : BitVec 16
  spaceUs : BitVec 16
  carrierHz : BitVec 16
  deriving DecidableEq, Repr

/-- What leaves the block (R35): a beat taken by the medium, a publish word, a response word. -/
inductive Event where
  | beat (b : Beat)
  | publish (w : PortWord)
  | respond (w : PortWord)
  deriving DecidableEq, Repr

/-- A move of the host on the command port (R108, R129): nothing offered, or a request word offered
and held until it is taken. -/
inductive HostMove where
  | idle
  | offer (w : PortWord)
  deriving DecidableEq, Repr

/-- The value that a pure operation returns (R70, R72, R81, R101). -/
inductive Value where
  | int (n : Int)
  | code (c : BitVec 4)
  | word (w : CmdWord)
  | position (q : SeqPos)
  | endOfTrain
  deriving DecidableEq, Repr

/-- An internal operation to be exercised on its own: by its command word (R54), or by name. -/
inductive BenchItem where
  | word (w : CmdWord)
  | op (i : Instr)
  deriving DecidableEq, Repr

/-- The block never stops with a fault: "The block raises no synchronous exception" (R113). There is
no reason to name. -/
inductive Fault where
  deriving DecidableEq, Repr

/-- Why the model gives no next state. Every one of these is safe: the model claims nothing there. -/
inductive Refusal where
  /-- Raised by an arm of `exec` whose instruction has no meaning yet. Safe. -/
  | notModelled (mnemonic : String)
  /-- Raised by TLUT outside 0..13: "a model must *refuse*" (R72). Safe. -/
  | lutIndexOutOfRange
  /-- Raised for one of the 412 positions of R66, "The spec gives them no behaviour": by the fetch of
  the micro-step and by NEXT. Safe. -/
  | unreachablePosition
  /-- Raised by the fetch for a request word with bits 9:8 not zero: "A model should *refuse* it"
  (R67). Safe. -/
  | reservedRequest
  /-- Raised by the fetch for a bench word that is none of the 43 words of R54 (R64, R89). Safe. -/
  | notACommandWord
  /-- Raised by EMIT.HDR, EMIT.BIT, EMIT.FTR for a beat that the block does not offer: BUSY is 0 or
  SEQ names another beat (R61, R99). Safe. -/
  | beatNotOffered
  /-- Raised by the fetch when reset is asserted while BUSY is 1: "or *refuse* runs that break it"
  (R124). Safe. -/
  | resetWhileBusy
  deriving DecidableEq, Repr

/-- The state of the block and of its ports. -/
structure State where
  /-- MODE (R14). -/
  mode : Mode
  /-- TTEMP (R15). -/
  ttemp : Temp
  /-- CURK (R16). -/
  curk : Bool
  /-- BUSY (R17). -/
  busy : Bool
  /-- SEQ (R18). -/
  seq : SeqPos
  /-- CWL (R19). -/
  cwl : CmdWord
  /-- Everything that has left the block, oldest first (R25 a). -/
  trace : List Event
  /-- The pulse sequence under construction, owned by the caller (R12, R79). -/
  pulses : List Pair
  /-- The value that the last pure operation returned. The model's own: log 11. -/
  result : Option Value
  /-- The coming moves of the host (R108). -/
  host : List HostMove
  /-- The medium's ready answers to the coming offers (R99). -/
  medium : List Bool
  /-- The medium's answer after those. -/
  mediumLevel : Bool
  /-- The reset line (R129). -/
  rst : Bool
  /-- An internal operation to be exercised on its own. The model's own: log 10. -/
  bench : Option BenchItem
  /-- How many free values have been drawn. The model's own: log 3. -/
  draws : Nat
  deriving DecidableEq, Repr

/-- Right after reset (R26 to R29, R31): AUTO, the unspecified default temperature, CURK, BUSY and
SEQ 0, CWL unspecified, nothing emitted. The inputs are quiet: nothing offered, medium ready. -/
def State.reset : State where
  mode := .auto
  ttemp := Config.tempDefault 0
  curk := false
  busy := false
  seq := 0#9
  cwl := Config.idleWord 0
  trace := []
  pulses := []
  result := none
  host := []
  medium := []
  mediumLevel := true
  rst := false
  bench := none
  draws := 1

end Sys2Proof.Machine
end

