-- ==== Sys2Proof/Machine/Flags.lean ====
section
/-!
DEFINITION. The two flags of the block: CURK (R16) and BUSY (R17). No operation records a result in a
flag, and there is no condition code (R17), so there is no other flag computation.
-/

namespace Sys2Proof.Machine

/-- "set to 'unknown'" (R16): reset, INIT and every APPLY do this; nothing sets the flag to 1. -/
def State.clearCurk (s : State) : State := { s with curk := false }

/-- BUSY becomes 1 when an APPLY is accepted (R17, R106 step 3). -/
def State.raiseBusy (s : State) : State := { s with busy := true }

/-- BUSY becomes 0 when the publish event has been emitted (R17, R106 step 5). -/
def State.dropBusy (s : State) : State := { s with busy := false }

/-- "the port is ready exactly when `BUSY` = 0" (R108). -/
def State.portReady (s : State) : Bool := !s.busy

end Sys2Proof.Machine
end

