-- ==== Sys2Proof/Machine/Ops.lean ====
section
/-!
DEFINITION. The named operations over the state that the meanings share: the primitives of R12
(Emit, Submit, Publish, Respond), the register writes, the handshakes of the command port (R108) and
of the transmit port (R99), and reset (R131). There is no exception to take and none to return from
(R113, R121, R122).
-/

namespace Sys2Proof.Machine

/-- What a meaning answers. -/
abbrev Result := Host.Outcome State Fault Refusal

/-! ### The primitives of R12 -/

/-- `Emit` of each pair in turn: appended to the pulse sequence under construction (R12, R79). -/
def State.emitAll (s : State) (ps : List Pair) : State := { s with pulses := s.pulses ++ ps }

/-- The value of a pure operation goes back to its caller. -/
def State.answer (s : State) (v : Value) : State := { s with result := some v }

/-- Events leave the block, in order. -/
def State.output (s : State) (es : List Event) : State := { s with trace := s.trace ++ es }

/-- One beat (R57): the pair and the carrier as 16-bit fields. -/
def mkBeat (first last : Bool) (hz : Nat) (p : Pair) : Beat :=
  ⟨first, last, BitVec.ofNat 16 p.mark, BitVec.ofNat 16 p.space, BitVec.ofNat 16 hz⟩

/-- A beat as the port carries it: `{first, last, mark_us, space_us, carrier_hz}` (R57). -/
def Beat.bits (b : Beat) : BitVec 50 :=
  BitVec.ofBool b.first ++ BitVec.ofBool b.last ++ b.markUs ++ b.spaceUs ++ b.carrierHz

/-- The beats of a request of `n` pairs from the one numbered `i` on: `first` on beat 0 only, `last`
on beat `n - 1` only (R57). -/
def beatsFrom (hz n : Nat) : Nat → List Pair → List Beat
  | _, [] => []
  | i, p :: ps => mkBeat (i == 0) (i + 1 == n) hz p :: beatsFrom hz n (i + 1) ps

/-- The beats of one transmit request (R57). -/
def requestBeats (hz : Nat) (ps : List Pair) : List Beat := beatsFrom hz ps.length 0 ps

/-- `Submit(hz, seq)` (R12, R98): one transmit request, handed over as one unit. -/
def State.submit (s : State) (hz : Nat) (ps : List Pair) : State :=
  s.output ((requestBeats hz ps).map .beat)

/-- The state layout of RSP16 (R60): `{000, MODE, CURK, 00, TTEMP}`. -/
def stateWord (m : Mode) (curk : Bool) (t : Temp) : PortWord :=
  0#3 ++ m.toBits ++ BitVec.ofBool curk ++ 0#2 ++ t

/-- CAP (R20) of an instance: bits `11ch00`. -/
def capBits (cool heat : Bool) : BitVec 6 :=
  1#1 ++ 1#1 ++ BitVec.ofBool cool ++ BitVec.ofBool heat ++ 0#1 ++ 0#1

/-- CAP of this instance (R9, R20): read-only, so not a field of the state. -/
def capReg : BitVec 6 := capBits Config.supportsCool Config.supportsHeat

/-- The caps layout of RSP16 (R60). -/
def capsWord (cap : BitVec 6) : PortWord := 0#10 ++ cap

/-- `Publish` of the state word (R12, R60). -/
def State.publishState (s : State) : State := s.output [.publish (stateWord s.mode s.curk s.ttemp)]

/-- `Respond(w)` (R12). -/
def State.respond (s : State) (w : PortWord) : State := s.output [.respond w]

/-! ### Register writes -/

/-- MODE and TTEMP written together (R104, R106 step 1). -/
def State.setClimate (s : State) (m : Mode) (t : Temp) : State := { s with mode := m, ttemp := t }

/-- MODE <- AUTO, TTEMP <- TEMP_DEFAULT, drawn afresh (R104, U1). -/
def State.setDefaultClimate (s : State) : State :=
  { s with mode := .auto, ttemp := Config.tempDefault s.draws, draws := s.draws + 1 }

/-- CWL and SEQ as an APPLY leaves them (R106 step 3). -/
def State.loadTrain (s : State) (cw : CmdWord) : State := { s with cwl := cw, seq := 0#9 }

/-- `SEQ <- q` (R12, R101). -/
def State.setSeq (s : State) (q : SeqPos) : State := { s with seq := q }

/-- CWL holds no word any more: its value while BUSY is 0 is unspecified (R19, U5). -/
def State.forgetWord (s : State) : State :=
  { s with cwl := Config.idleWord s.draws, draws := s.draws + 1 }

/-! ### The command port (R108) -/

/-- A request that is not taken stays offered by the host (R108, R118). -/
def State.holdRequest (s : State) (w : PortWord) : State := { s with host := .offer w :: s.host }

/-- A host command presents its word `w`: taken when the port is ready, held otherwise (R108). -/
def acceptCommand (w : PortWord) (effect : State → State) (s : State) : Result :=
  if s.portReady then .next (effect s) else .next (s.holdRequest w)

/-! ### The transmit port (R99, R100) -/

/-- Does the medium signal ready for the beat offered now? -/
def State.mediumReady (s : State) : Bool := s.medium.headD s.mediumLevel

/-- The medium has given its answer to this offer. -/
def State.mediumAnswered (s : State) : State := { s with medium := s.medium.tail }

/-- "the block offers the beat that `SEQ` names" (R99), while BUSY is 1 (R61, R100). -/
def State.offers (s : State) (q : SeqPos) : Bool := s.busy && s.seq == q

/-- The beat of the pair `p` at position `q`: `first`, `last` and `carrier_hz` as in R100. -/
def portBeat (q : SeqPos) (p : Pair) : Beat :=
  mkBeat (q == hdrPos false) (q == ftrPos true) carrierHz p

/-- The beat at position `q` leaves the block. -/
def State.beatOut (s : State) (q : SeqPos) (p : Pair) : State := s.output [.beat (portBeat q p)]

/-- The end of the train (R100, R106 step 5): SEQ <- 0, publish, BUSY <- 0. -/
def State.finishTrain (s : State) : State :=
  ((s.setSeq 0#9).publishState.dropBusy).forgetWord

/-- One micro-step (R99, R100): the beat `p` of position `q` is offered; when the medium is ready it
is taken and SEQ advances; when not, the block waits and goes on offering the same beat. -/
def offerBeat (q : SeqPos) (p : Pair) (s : State) : Result :=
  if s.offers q then
    match nextPos q with
    | none => .refused .unreachablePosition
    | some succ =>
      if s.mediumReady then
        match succ with
        | .goto q' => .next ((s.mediumAnswered.beatOut q p).setSeq q')
        | .endOfTrain => .next (s.mediumAnswered.beatOut q p).finishTrain
      else .next s.mediumAnswered
  else .refused .beatNotOffered

/-! ### Reset (R131) -/

/-- Reset takes effect (R131): every register at the value of R31; nothing is emitted (R29); the
inputs, and what has already left the block, are not the block's to change. -/
def State.takeReset (s : State) : State :=
  { s with
    mode := .auto, ttemp := Config.tempDefault s.draws, curk := false, busy := false, seq := 0#9,
    cwl := Config.idleWord s.draws, draws := s.draws + 1, rst := false }

end Sys2Proof.Machine
end

