-- ==== Sys2Proof/Machine/Composer.lean ====
section
/-!
DEFINITION. The frame composer (42_frame_composer.md): SETTEMP, the four cases, and the dispatch.
Pure: the word goes to the caller (R81).
-/

namespace Sys2Proof.Machine

/-- `SETTEMP(w, T)` (R86). -/
def setTempWord (w : CmdWord) (T : Int) : CmdWord := putTempField w (tempCode T)

/-- `COMPOSE.OFF()` (R82). -/
def offWord : CmdWord := cwOff

/-- `COMPOSE.AUTO(T)` (R83): the mode field of the template is not touched. -/
def autoWord (T : Int) : CmdWord := setTempWord cwAuto T

/-- `COMPOSE.COOL(T)` (R84). -/
def coolWord (T : Int) : CmdWord := setTempWord (putModeField cwBase modeCool) T

/-- `COMPOSE.HEAT(T)` (R85). -/
def heatWord (T : Int) : CmdWord := setTempWord (putModeField cwBase modeHeat) T

/-- `COMPOSE(m, T)` (R81). -/
def composeWord (m : Mode) (T : Int) : CmdWord :=
  match m with
  | .off => offWord
  | .auto => autoWord T
  | .cool => coolWord T
  | .heat => heatWord T

/-- SETTEMP (R86). -/
def execSetTemp (w : CmdWord) (T : Int) (s : State) : Result :=
  .next (s.answer (.word (setTempWord w T)))

/-- COMPOSE.OFF (R82). -/
def execComposeOff (s : State) : Result := .next (s.answer (.word offWord))

/-- COMPOSE.AUTO (R83). -/
def execComposeAuto (T : Int) (s : State) : Result := .next (s.answer (.word (autoWord T)))

/-- COMPOSE.COOL (R84). -/
def execComposeCool (T : Int) (s : State) : Result := .next (s.answer (.word (coolWord T)))

/-- COMPOSE.HEAT (R85). -/
def execComposeHeat (T : Int) (s : State) : Result := .next (s.answer (.word (heatWord T)))

/-- COMPOSE (R81). -/
def execCompose (m : Mode) (T : Int) (s : State) : Result :=
  .next (s.answer (.word (composeWord m T)))

end Sys2Proof.Machine
end

