-- ==== Sys2Proof/Machine/Commands.lean ====
section
/-!
DEFINITION. The host commands (44_command_interface.md): INIT, APPLY, STATE, CAPS.
-/

namespace Sys2Proof.Machine

/-- The effect of INIT (R104): the restored state or the default, and CURK <- 0. -/
def State.loadPrior (s : State) (prior : Option (Mode × Temp)) : State :=
  match prior with
  | some (m, t) => (s.setClimate m t).clearCurk
  | none => s.setDefaultClimate.clearCurk

/-- The accepting step of APPLY (R106 steps 1 to 3): update, CURK <- 0, compose from the updated
state, SEQ <- 0, BUSY <- 1. -/
def State.startApply (s : State) (m : Option Mode) (t : Option Temp) : State :=
  let u := (s.setClimate (m.getD s.mode) (t.getD s.ttemp)).clearCurk
  (u.loadTrain (composeWord u.mode (sint8 u.ttemp))).raiseBusy

/-- INIT (R104). -/
def execInit (prior : Option (Mode × Temp)) (s : State) : Result :=
  acceptCommand (initWord prior) (fun u => u.loadPrior prior) s

/-- APPLY (R106, R107): the accepting step; the beats and the publish event follow as micro-steps. -/
def execApply (m : Option Mode) (t : Option Temp) (s : State) : Result :=
  acceptCommand (applyWord m t) (fun u => u.startApply m t) s

/-- STATE (R109). -/
def execState (s : State) : Result :=
  acceptCommand stateReqWord (fun u => u.respond (stateWord u.mode u.curk u.ttemp)) s

/-- CAPS (R110). -/
def execCaps (s : State) : Result :=
  acceptCommand capsReqWord (fun u => u.respond (capsWord capReg)) s

end Sys2Proof.Machine
end

