-- ==== Sys2Proof/Machine/Sequencer.lean ====
section
/-!
DEFINITION. The transmission sequencer (43_transmission_sequencer.md): the functional description
SENDBYTE, PAYLOAD, FRAME, TRAIN, XMIT (R91 to R98), and the small-step realisation EMIT.HDR,
EMIT.BIT, EMIT.FTR, NEXT (R99 to R101).
-/

namespace Sys2Proof.Machine

/-! ### Functional description -/

/-- SER as the sequencer calls it (R80, R93): the protocol's timings, eight bits, most significant
first. -/
def serByte (b : BitVec 8) : List Pair :=
  serPairs bitMarkUs oneSpaceUs bitMarkUs zeroSpaceUs b.toNat 8 .msb

/-- `SENDBYTE(b)` (R93): the byte, then its 8-bit complement. -/
def sendBytePairs (b : BitVec 8) : List Pair := serByte b ++ serByte (~~~b)

/-- `PAYLOAD(cw)` (R94): three bytes, most significant first. -/
def payloadPairs (cw : CmdWord) : List Pair :=
  sendBytePairs (wordByte cw 0) ++ sendBytePairs (wordByte cw 1) ++ sendBytePairs (wordByte cw 2)

/-- `FRAME(cw) = HDR ++ PAYLOAD(cw) ++ FTR` (R95). -/
def framePairs (cw : CmdWord) : List Pair := [headerPair] ++ payloadPairs cw ++ [footerPair]

/-- `TRAIN(cw) = FRAME(cw) ++ FRAME(cw)` (R96). -/
def trainPairs (cw : CmdWord) : List Pair := framePairs cw ++ framePairs cw

/-- SENDBYTE (R93). -/
def execSendByte (b : BitVec 8) (s : State) : Result := .next (s.emitAll (sendBytePairs b))

/-- PAYLOAD (R94). -/
def execPayload (cw : CmdWord) (s : State) : Result := .next (s.emitAll (payloadPairs cw))

/-- FRAME (R95). -/
def execFrame (cw : CmdWord) (s : State) : Result := .next (s.emitAll (framePairs cw))

/-- TRAIN (R96). -/
def execTrain (cw : CmdWord) (s : State) : Result := .next (s.emitAll (trainPairs cw))

/-- XMIT (R98): `Submit(38000, TRAIN(cw))`. -/
def execXmit (cw : CmdWord) (s : State) : Result := .next (s.submit carrierHz (trainPairs cw))

/-! ### Small-step realisation -/

/-- The data bit at byte `j`, bit `p`, of the copy `v` (R100): XOR with `v` makes the complement. -/
def dataBit (cw : CmdWord) (j : BitVec 2) (v : Bool) (p : BitVec 3) : Bool :=
  Bool.xor (sentBit (wordByte cw j.toNat) p.toNat) v

/-- `PAIR(cw, SEQ)` (R100): the pair of a position; none on a position R66 gives no behaviour. -/
def pairAt (cw : CmdWord) (q : SeqPos) : Option Pair :=
  if legalPos q = false then none
  else if seqPh q = phHeader then some headerPair
  else if seqPh q = phFooter then some footerPair
  else some (symbol (dataBit cw (seqJ q) (seqV q) (seqP q)))

/-- The pairs that the micro-steps offer, one after the other, from a position on: `PAIR` of the
position, then on to its `NEXT`, up to the end of the train (R100, R101); at most `k` pairs. -/
def offeredPairs (cw : CmdWord) : Nat → SeqPos → List Pair
  | 0, _ => []
  | k + 1, q =>
    match pairAt cw q with
    | none => []
    | some p =>
      match nextPos q with
      | some (.goto q') => p :: offeredPairs cw k q'
      | some .endOfTrain => [p]
      | none => [p]

/-- "Starting from `SEQ` = 0 with `CWL` = `cw`, the sequence of pairs offered and taken over the 100
micro-steps" (R102): the small-step counterpart of `trainPairs`. -/
def microStepPairs (cw : CmdWord) : List Pair := offeredPairs cw 100 0#9

/-- What stands on the transmit port (R99, R100): the beat that SEQ names, while BUSY is 1. -/
def State.offeredBeat (s : State) : Option Beat :=
  if s.busy then (pairAt s.cwl s.seq).map (portBeat s.seq) else none

/-- EMIT.HDR (R100). -/
def execEmitHdr (f : Bool) (s : State) : Result := offerBeat (hdrPos f) headerPair s

/-- EMIT.BIT (R100). -/
def execEmitBit (f : Bool) (j : BitVec 2) (v : Bool) (p : BitVec 3) (s : State) : Result :=
  offerBeat (bitPos f j v p) (symbol (dataBit s.cwl j v p)) s

/-- EMIT.FTR (R100). -/
def execEmitFtr (f : Bool) (s : State) : Result := offerBeat (ftrPos f) footerPair s

/-- NEXT (R101): pure; no value on a position that R66 gives no behaviour. -/
def execNext (q : SeqPos) (s : State) : Result :=
  match nextPos q with
  | some (.goto q') => .next (s.answer (.position q'))
  | some .endOfTrain => .next (s.answer .endOfTrain)
  | none => .refused .unreachablePosition

end Sys2Proof.Machine
end

