-- ==== Sys2Proof/Machine/Serializer.lean ====
section
/-!
DEFINITION. The bitstream timing encoder (41_bitstream_serializer.md): SER, and the wire symbols
SYM.0, SYM.1 (R56), SYM.HDR (R91), SYM.FTR (R92). They append pairs to the caller's sequence and
read and write no register (R79).
-/

namespace Sys2Proof.Machine

/-- SER (R75 to R79). -/
def execSer (oneMark oneSpace zeroMark zeroSpace value bitCount : Nat) (order : BitOrder)
    (s : State) : Result :=
  .next (s.emitAll (serPairs oneMark oneSpace zeroMark zeroSpace value bitCount order))

/-- SYM.0 (R56): one tick, one tick. -/
def execSym0 (s : State) : Result := .next (s.emitAll [symbol false])

/-- SYM.1 (R56): one tick, three ticks. -/
def execSym1 (s : State) : Result := .next (s.emitAll [symbol true])

/-- SYM.HDR (R91): eight ticks, eight ticks. -/
def execSymHdr (s : State) : Result := .next (s.emitAll [headerPair])

/-- SYM.FTR (R92): one tick, nine ticks. -/
def execSymFtr (s : State) : Result := .next (s.emitAll [footerPair])

end Sys2Proof.Machine
end

