-- ==== Sys2Proof/Machine/TemperatureTable.lean ====
section
/-!
DEFINITION. The temperature clamp and code table (40_temperature_lut.md): CLAMP, TLUT, TCODE. Pure:
they read and write no register (R70, R72, R74); the value goes to the caller.
-/

namespace Sys2Proof.Machine

/-- CLAMP (R70). -/
def execClamp (T : Int) (s : State) : Result := .next (s.answer (.int (clampTemp T)))

/-- TLUT (R72): no value outside 0..13. -/
def execTlut (i : Int) (s : State) : Result :=
  match lutRead i with
  | some c => .next (s.answer (.code c))
  | none => .refused .lutIndexOutOfRange

/-- TCODE (R74). -/
def execTcode (T : Int) (s : State) : Result := .next (s.answer (.code (tempCode T)))

end Sys2Proof.Machine
end

