-- ==== Sys2Proof/Machine/Dispatch.lean ====
section
/-!
DEFINITION. One arm for each operation of R5: a direct call of its meaning.
-/

namespace Sys2Proof.Machine

def exec (i : Instr) (s : State) : Host.Outcome State Fault Refusal :=
  match i with
  | .composeOff => Sys2Proof.Machine.execComposeOff s
  | .composeAuto T => Sys2Proof.Machine.execComposeAuto T s
  | .composeCool T => Sys2Proof.Machine.execComposeCool T s
  | .composeHeat T => Sys2Proof.Machine.execComposeHeat T s
  | .init prior => Sys2Proof.Machine.execInit prior s
  | .apply mode temp => Sys2Proof.Machine.execApply mode temp s
  | .state => Sys2Proof.Machine.execState s
  | .caps => Sys2Proof.Machine.execCaps s
  | .emitHdr f => Sys2Proof.Machine.execEmitHdr f s
  | .emitBit f j v p => Sys2Proof.Machine.execEmitBit f j v p s
  | .emitFtr f => Sys2Proof.Machine.execEmitFtr f s
  | .sym0 => Sys2Proof.Machine.execSym0 s
  | .sym1 => Sys2Proof.Machine.execSym1 s
  | .symHdr => Sys2Proof.Machine.execSymHdr s
  | .symFtr => Sys2Proof.Machine.execSymFtr s
  | .clamp T => Sys2Proof.Machine.execClamp T s
  | .tlut k => Sys2Proof.Machine.execTlut k s
  | .tcode T => Sys2Proof.Machine.execTcode T s
  | .ser om os zm zs value n order => Sys2Proof.Machine.execSer om os zm zs value n order s
  | .compose m T => Sys2Proof.Machine.execCompose m T s
  | .setTemp w T => Sys2Proof.Machine.execSetTemp w T s
  | .sendByte b => Sys2Proof.Machine.execSendByte b s
  | .payload cw => Sys2Proof.Machine.execPayload cw s
  | .frame cw => Sys2Proof.Machine.execFrame cw s
  | .train cw => Sys2Proof.Machine.execTrain cw s
  | .xmit cw => Sys2Proof.Machine.execXmit cw s
  | .next q => Sys2Proof.Machine.execNext q s

end Sys2Proof.Machine
end

