-- ==== Sys2Proof/Machine/Fetch.lean ====
section
/-!
DEFINITION. What the block does next. It has no program counter and fetches no instructions (R18):
while BUSY is 1 the position SEQ selects the micro-step (R61); while BUSY is 0 the word offered on
the command port does (R59, R108); reset overrides both (R120 d).
-/

namespace Sys2Proof.Machine

/-- What is to happen in this step. -/
inductive Fetched where
  /-- Run this instruction from this state. -/
  | run (i : Instr) (s : State)
  /-- No instruction runs; this is the next state. -/
  | hold (s : State)
  /-- The model gives no meaning. -/
  | stop (r : Refusal)
  deriving DecidableEq, Repr

/-- The refusal of a word that the decoder rejects. -/
def refusalOf : Reject → Refusal
  | .reservedRequest => .reservedRequest
  | .unreachablePosition => .unreachablePosition
  | .notACommandWord => .notACommandWord

/-- Run what the decoder read, from `s`. -/
def runDecoded (d : Except Reject Instr) (s : State) : Fetched :=
  match d with
  | .ok i => .run i s
  | .error r => .stop (refusalOf r)

/-- The operation in the bench slot. -/
def decodeBench : BenchItem → Except Reject Instr
  | .word w => decode (.cw24 w)
  | .op i => .ok i

/-- The bench slot is empty again. -/
def State.benchTaken (s : State) : State := { s with bench := none }

/-- The host's coming moves after this one. -/
def State.setHost (s : State) (h : List HostMove) : State := { s with host := h }

/-- Reset first (R120 d), refused while BUSY is 1 (R124); then the beat that SEQ names (R61, R136);
then, while BUSY is 0, an operation exercised on its own; then the command port (R108). With nothing
offered the block is idle, with all state retained (R130, R132). -/
def fetch (s : State) : Fetched :=
  if s.rst then
    if s.busy then .stop .resetWhileBusy else .hold s.takeReset
  else if s.busy then runDecoded (decode (.seq9 s.seq)) s
  else
    match s.bench with
    | some b => runDecoded (decodeBench b) s.benchTaken
    | none =>
      match s.host with
      | [] => .hold s
      | .idle :: rest => .hold (s.setHost rest)
      | .offer w :: rest => runDecoded (decode (.req16 w)) (s.setHost rest)

/-- Put a word where the fetch finds its next instruction: on the command port, in SEQ with a medium
that takes the beat, or in the bench slot. -/
def State.place (s : State) (c : Code) : State :=
  match c with
  | .req16 w => { s with host := .offer w :: s.host, busy := false, rst := false, bench := none }
  | .seq9 q => { s with seq := q, busy := true, rst := false, medium := true :: s.medium }
  | .cw24 w => { s with bench := some (.word w), busy := false, rst := false }

end Sys2Proof.Machine
end

