-- ==== Sys2Proof/Machine/Step.lean ====
section
/-!
DEFINITION. One step of the block: fetch, then run what was fetched.
-/

namespace Sys2Proof.Machine

/-- One step (R129, R148): a command accepted, a beat offered, a reset, or nothing to do. -/
def step (s : State) : Host.Outcome State Fault Refusal :=
  match fetch s with
  | .run i u => exec i u
  | .hold u => .next u
  | .stop r => .refused r

/-- `s` with the word `w` of spec/opcode_table.json where the next step fetches it. -/
def State.withFetchWord (s : State) (nbits w : Nat) : State :=
  match tableCode nbits w with
  | some c => s.place c
  | none => s

end Sys2Proof.Machine
end

