-- ==== Sys2Proof/Machine/Assembler.lean ====
section
/-!
DEFINITION. The textual syntax of command sequences (R69, 30_encoding.md) and the request words it
stands for. No step of the block reads text: this is the notation of the spec's programs.
-/

namespace Sys2Proof.Machine

/-- A line of R69's table; `<T>` is a decimal integer. -/
inductive AsmLine where
  | init (prior : Option (Mode × Int))
  | apply (mode : Option Mode) (temp : Option Int)
  | state
  | caps
  deriving DecidableEq, Repr

/-- "`<T>` is a decimal integer in -128..127" (R69). -/
def tempWritable (T : Int) : Bool := -128 ≤ T ∧ T ≤ 127

/-- `(op << 14) | (e << 13) | (M << 11) | (g << 10) | (T & 0xFF)` (R69). -/
def asmWord (op : Nat) (e : Bool) (M : Nat) (g : Bool) (T : Int) : PortWord :=
  BitVec.ofNat 16 (op * 16384 + e.toNat * 8192 + M * 2048 + g.toNat * 1024 + (T % 256).toNat)

/-- The request word of a line (R69); none when a temperature is outside -128..127. -/
def assembleLine : AsmLine → Option PortWord
  | .init none => some (asmWord 0 false 0 false 0)
  | .init (some (m, T)) => if tempWritable T then some (asmWord 0 true m.toBits.toNat false T) else none
  | .apply none none => some (asmWord 1 false 0 false 0)
  | .apply (some m) none => some (asmWord 1 true m.toBits.toNat false 0)
  | .apply none (some T) => if tempWritable T then some (asmWord 1 false 0 true T) else none
  | .apply (some m) (some T) =>
    if tempWritable T then some (asmWord 1 true m.toBits.toNat true T) else none
  | .state => some (asmWord 2 false 0 false 0)
  | .caps => some (asmWord 3 false 0 false 0)

/-- The instruction that a line names. -/
def AsmLine.toInstr : AsmLine → Instr
  | .init prior => .init (prior.map fun mt => (mt.1, BitVec.ofInt 8 mt.2))
  | .apply m t => .apply m (t.map (BitVec.ofInt 8))
  | .state => .state
  | .caps => .caps

/-! ### Text -/

/-- Split at a separator; an empty piece is kept. -/
def splitAtChar (sep : Char) : List Char → List (List Char)
  | [] => [[]]
  | c :: cs =>
    match splitAtChar sep cs with
    | [] => [[c]]
    | piece :: rest => if c == sep then [] :: piece :: rest else (c :: piece) :: rest

/-- The words of a line; "`;` starts a comment" (R69). -/
def lineWords (line : List Char) : List (List Char) :=
  (splitAtChar ' ' (line.takeWhile (· != ';'))).filter (· != [])

/-- A decimal digit. -/
def digitOf (c : Char) : Option Nat :=
  if '0' ≤ c ∧ c ≤ '9' then some (c.toNat - 48) else none

/-- Decimal digits, at least one. -/
def parseNat (cs : List Char) : Option Nat :=
  match cs with
  | [] => none
  | _ => cs.foldl (fun acc c => (acc.bind fun n => (digitOf c).map fun d => 10 * n + d)) (some 0)

/-- A decimal integer. -/
def parseInt : List Char → Option Int
  | '-' :: cs => (parseNat cs).map fun n => -(n : Int)
  | cs => (parseNat cs).map fun n => (n : Int)

/-- "`<M>` is one of `OFF`, `AUTO`, `COOL`, `HEAT`" (R69). -/
def parseMode (cs : List Char) : Option Mode :=
  if cs = ['O', 'F', 'F'] then some .off
  else if cs = ['A', 'U', 'T', 'O'] then some .auto
  else if cs = ['C', 'O', 'O', 'L'] then some .cool
  else if cs = ['H', 'E', 'A', 'T'] then some .heat
  else none

/-- The operand `mode=<M>`. -/
def parseModeField : List Char → Option Mode
  | 'm' :: 'o' :: 'd' :: 'e' :: '=' :: cs => parseMode cs
  | _ => none

/-- The operand `temp=<T>`. -/
def parseTempField : List Char → Option Int
  | 't' :: 'e' :: 'm' :: 'p' :: '=' :: cs => parseInt cs
  | _ => none

/-- The operands of `apply`, in the four forms of R69. -/
def parseApply : List (List Char) → Option AsmLine
  | [] => some (.apply none none)
  | [a] =>
    match parseModeField a with
    | some m => some (.apply (some m) none)
    | none => (parseTempField a).map fun T => .apply none (some T)
  | [a, b] => (parseModeField a).bind fun m => (parseTempField b).map fun T => .apply (some m) (some T)
  | _ => none

/-- The operands of `init`, in the two forms of R69. -/
def parseInit : List (List Char) → Option AsmLine
  | [] => some (.init none)
  | [a, b] => (parseMode a).bind fun m => (parseInt b).map fun T => .init (some (m, T))
  | _ => none

/-- A line that is not blank. -/
def parseWords : List (List Char) → Option AsmLine
  | [] => none
  | op :: args =>
    if op = ['i', 'n', 'i', 't'] then parseInit args
    else if op = ['a', 'p', 'p', 'l', 'y'] then parseApply args
    else if op = ['s', 't', 'a', 't', 'e'] ∧ args = [] then some .state
    else if op = ['c', 'a', 'p', 's'] ∧ args = [] then some .caps
    else none

/-- The request words of a text, "One command per line" (R69); none when a line is not of the
syntax. Blank lines and comments stand for nothing. -/
def assemble (text : List Char) : Option (List PortWord) :=
  (((splitAtChar '\n' text).map lineWords).filter (· != [])).mapM fun ws =>
    (parseWords ws).bind assembleLine

end Sys2Proof.Machine
end

