-- ==== Sys2Proof/Safety.lean ====
section
/-!
DEFINITION. The terms that claims about runs of the block use: several steps, the invariant of the
registers, and what the trace of whole commands looks like.
-/

namespace Sys2Proof.Machine

/-- `k` steps of the block, stopping where a step stops. -/
def runSteps : Nat → State → Result
  | 0, s => .next s
  | k + 1, s =>
    match step s with
    | .next t => runSteps k t
    | .fault r => .fault r
    | .refused r => .refused r

/-- One instruction after another, stopping where one stops. -/
def execAll : List Instr → State → Result
  | [], s => .next s
  | i :: is, s =>
    match exec i s with
    | .next t => execAll is t
    | .fault r => .fault r
    | .refused r => .refused r

/-- The registers are as the spec says they always are. -/
structure State.Inv (s : State) : Prop where
  /-- "within this block `CURK` = 0 always" (R16). -/
  curkUnknown : s.curk = false
  /-- Only the 100 positions of R66 arise. -/
  seqLegal : legalPos s.seq = true
  /-- "`SEQ` = 0 whenever `BUSY` = 0" (R18). -/
  idleSeq : s.busy = false → s.seq = 0#9
  /-- CWL holds the word of the command in progress, composed from MODE and TTEMP (R19, R47). -/
  wordLatched : s.busy = true → s.cwl = composeWord s.mode (sint8 s.ttemp)

/-- The 100 beats of the transmit request of `cw` (R57, R98). -/
def trainEvents (cw : CmdWord) : List Event :=
  (requestBeats carrierHz (trainPairs cw)).map .beat

/-- Everything that one APPLY emits, MODE and TTEMP being what its update leaves (R106 steps 4, 5). -/
def applyEvents (m : Mode) (t : Temp) : List Event :=
  trainEvents (composeWord m (sint8 t)) ++ [.publish (stateWord m false t)]

/-- A trace of whole commands, in order (R44 item 1, R112): each response is one word, each APPLY is
its 100 beats followed by its publish event. -/
inductive WholeCommands : List Event → Prop where
  | nil : WholeCommands []
  | response (done : List Event) (m : Mode) (t : Temp) :
      WholeCommands done → WholeCommands (done ++ [.respond (stateWord m false t)])
  | capsResponse (done : List Event) :
      WholeCommands done → WholeCommands (done ++ [.respond (capsWord capReg)])
  | applied (done : List Event) (m : Mode) (t : Temp) :
      WholeCommands done → WholeCommands (done ++ applyEvents m t)

/-- The beats of the command in progress that the medium has taken (R18: `n` of them). -/
def State.beatsInProgress (s : State) : List Event :=
  if s.busy then (trainEvents s.cwl).take (flatPos s.seq) else []

/-- The trace is whole commands, then the beats of the APPLY in progress; nothing is exercised on
its own. -/
structure State.TraceInv (s : State) : Prop where
  noBench : s.bench = none
  wholeCommands : ∃ done, WholeCommands done ∧ s.trace = done ++ s.beatsInProgress

/-- What an observer that holds `seen` holds after an event (R45). -/
def observe (seen : Option PortWord) (e : Event) : Option PortWord :=
  match e with
  | .beat _ => seen
  | .publish w => some w
  | .respond _ => seen

/-- The word of the latest publish event: what an observer holds (R45). -/
def State.lastPublished (s : State) : Option PortWord := s.trace.foldl observe none

/-- The total duration of a sequence of pairs, in microseconds. -/
def totalDuration (ps : List Pair) : Nat := (ps.map Pair.duration).sum

end Sys2Proof.Machine
end

