-- ==== Sys2Proof/Certificates/Slice0/Obligations.lean ====
section
/-!
DEFINITION. The statements about the block, from the numbered rules of spec/. Each docstring names
the rule. A statement whose conclusion is `exec i s = .next …` also says where the instruction
completes and, because the whole next state is written, everything that it leaves unchanged.
-/

open Sys2Proof Sys2Proof.Machine

/-! ## Temperature clamp and code table (40_temperature_lut.md) -/

/-- R70: CLAMP answers 17 below 17, 30 above 30, and its operand otherwise; it is idempotent and
monotone; it changes nothing but the caller's value. -/
def Obligations.ClampIsTwoSided : Prop :=
  ∃ f : Int → Int,
    (∀ (T : Int) (s : State), exec (.clamp T) s = .next { s with result := some (.int (f T)) }) ∧
    (∀ T, T < 17 → f T = 17) ∧ (∀ T, 30 < T → f T = 30) ∧ (∀ T, 17 ≤ T → T ≤ 30 → f T = T) ∧
    (∀ T, f (f T) = f T) ∧ (∀ T U, T ≤ U → f T ≤ f U)

/-- R72, with the contents of R71: TLUT answers the literal of the table for 0..13 and is refused
for every other index. -/
def Obligations.TableReadGivesTheLiterals : Prop :=
  ∀ (i : Int) (s : State),
    (0 ≤ i ∧ i ≤ 13 →
      exec (.tlut i) s = .next { s with result := some (.code
        (([0b0000#4, 0b0001#4, 0b0011#4, 0b0010#4, 0b0110#4, 0b0111#4, 0b0101#4, 0b0100#4,
           0b1100#4, 0b1101#4, 0b1001#4, 0b1000#4, 0b1010#4, 0b1011#4] : List (BitVec 4)).getD
          i.toNat 0#4)) }) ∧
    (¬(0 ≤ i ∧ i ≤ 13) → exec (.tlut i) s = .refused .lutIndexOutOfRange)

/-- R73 (a), (b), (c): the codes are pairwise different, `1110` and `1111` do not occur, and
neighbours differ in exactly one bit. -/
def Obligations.TableCodesAreDistinct : Prop :=
  ∀ (i j : Int) (c d : BitVec 4) (s : State),
    exec (.tlut i) s = .next { s with result := some (.code c) } →
    exec (.tlut j) s = .next { s with result := some (.code d) } →
    (i ≠ j → c ≠ d) ∧ c ≠ 0b1110#4 ∧ c ≠ 0b1111#4 ∧
    (j = i + 1 → c ^^^ d = 1#4 ∨ c ^^^ d = 2#4 ∨ c ^^^ d = 4#4 ∨ c ^^^ d = 8#4)

/-- R74: TCODE of every integer is the table read at the clamped temperature less 17; it is `0x0` up
to 17 degrees and `0xB` from 30 degrees on. -/
def Obligations.TempCodeIsTheClampedRead : Prop :=
  ∀ (T : Int) (s : State), ∃ c : BitVec 4,
    exec (.tcode T) s = .next { s with result := some (.code c) } ∧
    exec (.tlut ((if T < 17 then 17 else if 30 < T then 30 else T) - 17)) s =
      .next { s with result := some (.code c) } ∧
    (T ≤ 17 → c = 0x0#4) ∧ (30 ≤ T → c = 0xB#4)

/-! ## Bitstream timing encoder (41_bitstream_serializer.md) -/

/-- R75: SER appends exactly `n` pairs; the pair for bit position `i` is the one pair when the bit
is 1 and the zero pair otherwise; the positions come in the requested order. -/
def Obligations.SerEmitsOnePairPerBit : Prop :=
  ∀ (om os zm zs value n : Nat) (order : BitOrder) (s : State), ∃ ps : List Pair,
    exec (.ser om os zm zs value n order) s = .next { s with pulses := s.pulses ++ ps } ∧
    ps.length = n ∧
    ∀ k, k < n →
      ps[k]? = some (if value / 2 ^ (match order with | .msb => n - 1 - k | .lsb => k) % 2 = 1
        then ⟨om, os⟩ else ⟨zm, zs⟩)

/-- R76: a bit count of 0 emits nothing, whatever the value and the order. -/
def Obligations.SerOfNoBitsIsNoOp : Prop :=
  ∀ (om os zm zs value : Nat) (order : BitOrder) (s : State),
    exec (.ser om os zm zs value 0 order) s = .next s

/-- R77: when the bit count exceeds the width `w` of the value, the excess positions are zero pairs:
the leading ones for most-significant-first, the last ones for least-significant-first. The spec
derives the second half from R75, and the two short outputs are reverses of each other by R75. -/
def Obligations.SerPadsWithZeroPairs : Prop :=
  ∀ (om os zm zs value w n : Nat) (s : State), value < 2 ^ w → w ≤ n →
    ∃ short long : List Pair,
      exec (.ser om os zm zs value w .msb) s = .next { s with pulses := s.pulses ++ short } ∧
      exec (.ser om os zm zs value n .msb) s =
        .next { s with pulses := s.pulses ++ List.replicate (n - w) ⟨zm, zs⟩ ++ short } ∧
      exec (.ser om os zm zs value w .lsb) s = .next { s with pulses := s.pulses ++ long } ∧
      exec (.ser om os zm zs value n .lsb) s =
        .next { s with pulses := s.pulses ++ long ++ List.replicate (n - w) ⟨zm, zs⟩ } ∧
      short.length = w ∧ long = short.reverse

/-- R78: the bits of the value at and above the bit count have no effect. The source does not state
this case: R78 marks it as the spec's own reading (D16, U4). -/
def Obligations.SerIgnoresHighBits : Prop :=
  ∀ (om os zm zs value n : Nat) (order : BitOrder) (s : State),
    exec (.ser om os zm zs value n order) s = exec (.ser om os zm zs (value % 2 ^ n) n order) s

/-- R56, R91, R92: the four symbols are the pairs (560, 560), (560, 1680), (4480, 4480) and
(560, 5040). -/
def Obligations.SymbolsAreTheirPairs : Prop :=
  ∀ s : State,
    exec .sym0 s = .next { s with pulses := s.pulses ++ [⟨560, 560⟩] } ∧
    exec .sym1 s = .next { s with pulses := s.pulses ++ [⟨560, 1680⟩] } ∧
    exec .symHdr s = .next { s with pulses := s.pulses ++ [⟨4480, 4480⟩] } ∧
    exec .symFtr s = .next { s with pulses := s.pulses ++ [⟨560, 5040⟩] }

/-! ## Frame composer (42_frame_composer.md) -/

/-- R81: COMPOSE is the case of its mode, and always answers a word; R87 (b), which the spec derives
from R82 to R86: the word of the clamped temperature. -/
def Obligations.ComposeDispatchesOnMode : Prop :=
  ∀ (T : Int) (s : State),
    exec (.compose .off T) s = exec .composeOff s ∧
    exec (.compose .auto T) s = exec (.composeAuto T) s ∧
    exec (.compose .cool T) s = exec (.composeCool T) s ∧
    exec (.compose .heat T) s = exec (.composeHeat T) s ∧
    ∀ m : Mode, ∃ w : CmdWord,
      exec (.compose m T) s = .next { s with result := some (.word w) } ∧
      exec (.compose m (if T < 17 then 17 else if 30 < T then 30 else T)) s =
        .next { s with result := some (.word w) }

/-- R82: the OFF word is `0xB27BE0`, whatever the temperature. -/
def Obligations.OffWordIsFixed : Prop :=
  ∀ (T : Int) (s : State),
    exec .composeOff s = .next { s with result := some (.word 0xB27BE0#24) } ∧
    exec (.compose .off T) s = .next { s with result := some (.word 0xB27BE0#24) }

/-- R83: the AUTO word is `0xB21F08` with the code of the temperature in bits 7:4; for 25 degrees it
is the template; it differs from the COOL and the HEAT word of the same temperature in bits 15 and 13
and in the mode field. -/
def Obligations.AutoWordKeepsItsTemplate : Prop :=
  ∀ (T : Int) (s : State), ∃ (w cool heat : CmdWord) (c : BitVec 4),
    exec (.composeAuto T) s = .next { s with result := some (.word w) } ∧
    exec (.composeCool T) s = .next { s with result := some (.word cool) } ∧
    exec (.composeHeat T) s = .next { s with result := some (.word heat) } ∧
    exec (.tcode T) s = .next { s with result := some (.code c) } ∧
    w.extractLsb' 8 16 = 0xB21F#16 ∧ w.extractLsb' 4 4 = c ∧ w.extractLsb' 0 4 = 0x8#4 ∧
    (T = 25 → w = 0xB21FC8#24) ∧ w ^^^ cool = 0x00A008#24 ∧ w ^^^ heat = 0x00A004#24

/-- R84: the COOL word has bits 23:8 = `0xB2BF`, the code of the temperature in bits 7:4, mode field
`00` and bits 1:0 = `00`. -/
def Obligations.CoolWordFields : Prop :=
  ∀ (T : Int) (s : State), ∃ (w : CmdWord) (c : BitVec 4),
    exec (.composeCool T) s = .next { s with result := some (.word w) } ∧
    exec (.tcode T) s = .next { s with result := some (.code c) } ∧
    w.extractLsb' 8 16 = 0xB2BF#16 ∧ w.extractLsb' 4 4 = c ∧ w.extractLsb' 2 2 = 0b00#2 ∧
    w.extractLsb' 0 2 = 0b00#2

/-- R85: the HEAT word is the COOL word of the same temperature with bits 3 and 2 set. -/
def Obligations.HeatWordIsCoolWithModeBits : Prop :=
  ∀ (T : Int) (s : State), ∃ (w c : CmdWord),
    exec (.composeHeat T) s = .next { s with result := some (.word w) } ∧
    exec (.composeCool T) s = .next { s with result := some (.word c) } ∧
    w = c ||| 0x00000C#24 ∧ w.extractLsb' 2 2 = 0b11#2

/-- R86: SETTEMP sets bits 7:4 to the code of the temperature and changes no other bit. -/
def Obligations.SetTempChangesOnlyItsField : Prop :=
  ∀ (w : CmdWord) (T : Int) (s : State), ∃ (r : CmdWord) (c : BitVec 4),
    exec (.setTemp w T) s = .next { s with result := some (.word r) } ∧
    exec (.tcode T) s = .next { s with result := some (.code c) } ∧
    r.extractLsb' 4 4 = c ∧ ∀ k, k < 4 ∨ 8 ≤ k → r.getLsbD k = w.getLsbD k

/-- R87 (c), (d): in 17..30 and outside OFF, equal words mean equal mode and equal temperature. -/
def Obligations.ComposedWordsAreDistinct : Prop :=
  ∀ (m n : Mode) (T U : Int) (s : State), m ≠ .off → 17 ≤ T → T ≤ 30 → 17 ≤ U → U ≤ 30 →
    exec (.compose m T) s = exec (.compose n U) s → m = n ∧ T = U

/-- R54, R87 (a): a 24-bit word decodes exactly when some mode and temperature compose it. -/
def Obligations.DecodableWordsAreTheComposedOnes : Prop :=
  ∀ (w : CmdWord) (s : State),
    (∃ i, decode (.cw24 w) = .ok i) ↔
      ∃ (m : Mode) (T : Int), exec (.compose m T) s = .next { s with result := some (.word w) }

/-- R54 against R82 to R85: the word that encodes a composition is the word that it makes. -/
def Obligations.EncodedCompositionIsItsResult : Prop :=
  ∀ (i : Instr) (w : CmdWord) (s : State), encode i = some (.cw24 w) →
    exec i s = .next { s with result := some (.word w) }

/-! ## Transmission sequencer, functional description (43_transmission_sequencer.md) -/

/-- R93: SENDBYTE appends 16 pairs: pair `p` is the symbol of bit `7 - p` of the byte, and pair
`8 + p` is the opposite symbol; so they always last 26880 microseconds, which R80 derives
from R75 and R56. -/
def Obligations.SendByteThenComplement : Prop :=
  ∀ (b : BitVec 8) (s : State), ∃ ps : List Pair,
    exec (.sendByte b) s = .next { s with pulses := s.pulses ++ ps } ∧ ps.length = 16 ∧
    totalDuration ps = 26880 ∧
    ∀ p, p < 8 →
      ps[p]? = some ⟨560, if b.getLsbD (7 - p) then 1680 else 560⟩ ∧
      ps[8 + p]? = some ⟨560, if b.getLsbD (7 - p) then 560 else 1680⟩

/-- R94: PAYLOAD is the SENDBYTE of bits 23:16, of bits 15:8 and of bits 7:0, in that order; 48
pairs. -/
def Obligations.PayloadIsThreeSendBytes : Prop :=
  ∀ (cw : CmdWord) (s : State), ∃ ps : List Pair,
    exec (.payload cw) s = .next { s with pulses := s.pulses ++ ps } ∧ ps.length = 48 ∧
    execAll [.sendByte (cw.extractLsb' 16 8), .sendByte (cw.extractLsb' 8 8),
      .sendByte (cw.extractLsb' 0 8)] s = .next { s with pulses := s.pulses ++ ps }

/-- R95: FRAME is the header, the payload and the footer; 50 pairs. -/
def Obligations.FrameIsHeaderPayloadFooter : Prop :=
  ∀ (cw : CmdWord) (s : State), ∃ ps : List Pair,
    exec (.frame cw) s = .next { s with pulses := s.pulses ++ ps } ∧ ps.length = 50 ∧
    execAll [.symHdr, .payload cw, .symFtr] s = .next { s with pulses := s.pulses ++ ps }

/-- R97, with R96: TRAIN is the frame twice; 100 pairs, the first `(4480, 4480)` and the last
`(560, 5040)`. -/
def Obligations.TrainIsTwoFramesOfFiftyPairs : Prop :=
  ∀ (cw : CmdWord) (s : State), ∃ ps fs : List Pair,
    exec (.train cw) s = .next { s with pulses := s.pulses ++ ps } ∧
    exec (.frame cw) s = .next { s with pulses := s.pulses ++ fs } ∧
    ps = fs ++ fs ∧ fs.length = 50 ∧ ps.length = 100 ∧
    ps[0]? = some ⟨4480, 4480⟩ ∧ ps[99]? = some ⟨560, 5040⟩

/-- R146: every frame lasts 95200 microseconds and every train 190400, of which the marks take 63840,
whatever the word. -/
def Obligations.TrainLastsFixedTime : Prop :=
  ∀ (cw : CmdWord) (s : State), ∃ ps fs : List Pair,
    exec (.train cw) s = .next { s with pulses := s.pulses ++ ps } ∧
    exec (.frame cw) s = .next { s with pulses := s.pulses ++ fs } ∧
    totalDuration fs = 95200 ∧ totalDuration ps = 190400 ∧ (ps.map Pair.mark).sum = 63840

/-- R98 with R57 and R11: XMIT hands over one request: the 100 pairs of TRAIN, none truncated,
carrier 38000 on each beat, `first` on beat 0 only, `last` on beat 99 only. -/
def Obligations.XmitIsOneTransmitRequest : Prop :=
  ∀ (cw : CmdWord) (s : State), ∃ (bs : List Beat) (ps : List Pair),
    exec (.xmit cw) s = .next { s with trace := s.trace ++ bs.map .beat } ∧
    exec (.train cw) s = .next { s with pulses := s.pulses ++ ps } ∧
    bs.length = 100 ∧
    bs.map (fun b => Pair.mk b.markUs.toNat b.spaceUs.toNat) = ps ∧
    ∀ n b, bs[n]? = some b →
      b.carrierHz = 38000#16 ∧ (b.first = true ↔ n = 0) ∧ (b.last = true ↔ n = 99)

/-! ## Transmission sequencer, small-step realisation -/

/-- R101: the seven lines of NEXT. -/
def Obligations.NextFollowsItsSevenLines : Prop :=
  ∀ (f v : Bool) (j : BitVec 2) (p : BitVec 3) (s : State), j ≠ 3 →
    exec (.next (packSeq f 0b00 0 false 0)) s =
      .next { s with result := some (.position (packSeq f 0b01 0 false 0)) } ∧
    (p ≠ 7 → exec (.next (packSeq f 0b01 j v p)) s =
      .next { s with result := some (.position (packSeq f 0b01 j v (p + 1))) }) ∧
    exec (.next (packSeq f 0b01 j false 7)) s =
      .next { s with result := some (.position (packSeq f 0b01 j true 0)) } ∧
    (j ≠ 2 → exec (.next (packSeq f 0b01 j true 7)) s =
      .next { s with result := some (.position (packSeq f 0b01 (j + 1) false 0)) }) ∧
    exec (.next (packSeq f 0b01 2 true 7)) s =
      .next { s with result := some (.position (packSeq f 0b10 0 false 0)) } ∧
    exec (.next (packSeq false 0b10 0 false 0)) s =
      .next { s with result := some (.position (packSeq true 0b00 0 false 0)) } ∧
    exec (.next (packSeq true 0b10 0 false 0)) s = .next { s with result := some .endOfTrain }

/-- R101 in the flat numbering of R18: NEXT takes beat `n` to beat `n + 1` for `n` up to 98, beat 99
ends the train, and the unreachable positions of R66 are refused. -/
def Obligations.NextCountsTheBeats : Prop :=
  ∀ (q : SeqPos) (s : State),
    (legalPos q = true → flatPos q < 99 → ∃ q' : SeqPos,
      exec (.next q) s = .next { s with result := some (.position q') } ∧
      legalPos q' = true ∧ flatPos q' = flatPos q + 1) ∧
    (legalPos q = true → 99 ≤ flatPos q →
      exec (.next q) s = .next { s with result := some .endOfTrain } ∧ flatPos q = 99) ∧
    (legalPos q = false → exec (.next q) s = .refused .unreachablePosition)

/-- R100: the header beat, taken. -/
def Obligations.HeaderBeatTaken : Prop :=
  ∀ (f : Bool) (s : State), s.busy = true → s.seq = packSeq f 0b00 0 false 0 →
    s.mediumReady = true →
    exec (.emitHdr f) s = .next { s with
      trace := s.trace ++ [.beat ⟨!f, false, 4480#16, 4480#16, 38000#16⟩],
      seq := packSeq f 0b01 0 false 0, medium := s.medium.tail }

/-- R100: a data beat, taken: the pair is the symbol of word bit `23 - 8j - p`, complemented when
`v` is 1, and SEQ advances by one beat. -/
def Obligations.DataBeatTaken : Prop :=
  ∀ (f v : Bool) (j : BitVec 2) (p : BitVec 3) (s : State), j ≠ 3 → s.busy = true →
    s.seq = packSeq f 0b01 j v p → s.mediumReady = true → ∃ q' : SeqPos,
    legalPos q' = true ∧ flatPos q' = 50 * f.toNat + 2 + 16 * j.toNat + 8 * v.toNat + p.toNat ∧
    exec (.emitBit f j v p) s = .next { s with
      trace := s.trace ++ [.beat ⟨false, false, 560#16,
        if Bool.xor (s.cwl.getLsbD (23 - 8 * j.toNat - p.toNat)) v then 1680#16 else 560#16,
        38000#16⟩],
      seq := q', medium := s.medium.tail }

/-- R100: the footer beat of the primary send, taken: the repeat follows at once. -/
def Obligations.FirstFooterBeatTaken : Prop :=
  ∀ s : State, s.busy = true → s.seq = packSeq false 0b10 0 false 0 → s.mediumReady = true →
    exec (.emitFtr false) s = .next { s with
      trace := s.trace ++ [.beat ⟨false, false, 560#16, 5040#16, 38000#16⟩],
      seq := packSeq true 0b00 0 false 0, medium := s.medium.tail }

/-- R100 and R106 step 5: the last beat, taken: SEQ and BUSY return to 0 and the state word is
published after the beat. Nothing is said of CWL, which is unspecified from then on (R19; the model's
free value, log 2), nor of the model's count of draws. -/
def Obligations.LastBeatPublishesAndEnds : Prop :=
  ∀ s : State, s.busy = true → s.seq = packSeq true 0b10 0 false 0 → s.mediumReady = true →
    ∃ t : State, exec (.emitFtr true) s = .next t ∧
    t = { s with
      trace := s.trace ++ [.beat ⟨false, true, 560#16, 5040#16, 38000#16⟩,
        .publish (0#3 ++ s.mode.toBits ++ BitVec.ofBool s.curk ++ 0#2 ++ s.ttemp)],
      seq := 0#9, busy := false, medium := s.medium.tail, cwl := t.cwl, draws := t.draws }

/-- R99: while the medium is not ready, a step takes no beat: SEQ does not advance, nothing leaves
the block, and the same beat stays offered. -/
def Obligations.OfferedBeatIsHeld : Prop :=
  ∀ s : State, s.rst = false → s.busy = true → legalPos s.seq = true → s.mediumReady = false →
    ∃ t : State, step s = .next t ∧ t = { s with medium := s.medium.tail } ∧
      t.offeredBeat = s.offeredBeat ∧ s.offeredBeat.isSome = true

/-- R99, R100: while the medium is ready, a step hands over exactly the offered beat. -/
def Obligations.TakenBeatIsTheOfferedOne : Prop :=
  ∀ s : State, s.rst = false → s.busy = true → legalPos s.seq = true → s.mediumReady = true →
    ∃ (t : State) (b : Beat) (rest : List Event), step s = .next t ∧ s.offeredBeat = some b ∧
      t.trace = s.trace ++ .beat b :: rest ∧
      (rest = [] ∨ ∃ w, rest = [.publish w] ∧ b.last = true ∧ t.busy = false)

/-- R61, R99: a beat that the block does not offer is no micro-step: the model refuses it (log 16).
R66: a position that the spec gives no behaviour is refused, by EMIT.BIT and by the step (log 18). -/
def Obligations.BeatsWithoutMeaningAreRefused : Prop :=
  ∀ (f v : Bool) (j : BitVec 2) (p : BitVec 3) (s : State),
    (s.busy = false ∨ s.seq ≠ packSeq f 0b00 0 false 0 →
      exec (.emitHdr f) s = .refused .beatNotOffered) ∧
    (s.busy = false ∨ s.seq ≠ packSeq f 0b01 j v p →
      exec (.emitBit f j v p) s = .refused .beatNotOffered) ∧
    (s.busy = false ∨ s.seq ≠ packSeq f 0b10 0 false 0 →
      exec (.emitFtr f) s = .refused .beatNotOffered) ∧
    (s.busy = true ∧ s.seq = packSeq f 0b01 3 v p →
      exec (.emitBit f 3 v p) s = .refused .unreachablePosition) ∧
    (s.rst = false ∧ s.busy = true ∧ legalPos s.seq = false →
      step s = .refused .unreachablePosition)

/-- R102: the two descriptions agree. From SEQ 0, with a medium that takes every beat, 100 steps hand
over exactly the pairs of TRAIN of CWL, as the very beats of XMIT of CWL, and then publish. XMIT on
its own is one step (log 15); the publish event, BUSY and SEQ at the end are R100 and R106, in the
step of the last beat (log 28). -/
def Obligations.MicroStepsMakeTheTrain : Prop :=
  ∀ s : State, s.rst = false → s.busy = true → s.seq = 0#9 →
    (∀ a, a ∈ s.medium → a = true) → s.mediumLevel = true →
    ∃ (t : State) (bs : List Beat) (ps : List Pair) (w : PortWord),
      runSteps 100 s = .next t ∧ t.trace = s.trace ++ bs.map .beat ++ [.publish w] ∧
      exec (.train s.cwl) s = .next { s with pulses := s.pulses ++ ps } ∧
      bs.map (fun b => Pair.mk b.markUs.toNat b.spaceUs.toNat) = ps ∧
      exec (.xmit s.cwl) s = .next { s with trace := s.trace ++ bs.map .beat } ∧
      t.busy = false ∧ t.seq = 0#9 ∧ t.mode = s.mode ∧ t.ttemp = s.ttemp

/-- R141 with the premise of D24: a medium that is not ready only finitely often lets every APPLY
end: within 100 beats and one step for each listed answer, the rest of the train has been taken, the
state is published, and the port is ready. The form of the premise, a finite list of answers and then
one level, is the model's (log 7). -/
def Obligations.EveryApplyEnds : Prop :=
  ∀ s : State, s.Inv → s.rst = false → s.busy = true → s.mediumLevel = true →
    ∃ (n : Nat) (t : State), n ≤ 100 + s.medium.length ∧ runSteps n s = .next t ∧
      t.trace = s.trace ++ (trainEvents s.cwl).drop (flatPos s.seq) ++
        [.publish (stateWord s.mode false s.ttemp)] ∧
      t.portReady = true ∧ t.seq = 0#9 ∧ t.mode = s.mode ∧ t.ttemp = s.ttemp ∧ t.host = s.host

/-- R141: a medium that never takes the beat leaves the block busy for ever, offering the same beat,
with nothing emitted and no request taken. -/
def Obligations.MediumNeverReadyHangs : Prop :=
  ∀ (n : Nat) (s : State), s.rst = false → s.busy = true → legalPos s.seq = true →
    (∀ a, a ∈ s.medium → a = false) → s.mediumLevel = false →
    ∃ t : State, runSteps n s = .next t ∧ t.busy = true ∧ t.trace = s.trace ∧ t.host = s.host ∧
      t.offeredBeat = s.offeredBeat

/-! ## Host commands (44_command_interface.md) -/

/-- R104: INIT with a restored state loads it; without one it gives AUTO and some default
temperature; CURK is 0 in both cases; nothing is emitted. The default is free (log 1) and counts as
one draw of the model (log 3). -/
def Obligations.InitLoadsStateOrDefault : Prop :=
  ∀ (m : Mode) (t : Temp) (s : State), s.busy = false →
    exec (.init (some (m, t))) s = .next { s with mode := m, ttemp := t, curk := false } ∧
    ∃ d : Temp, exec (.init none) s =
      .next { s with mode := .auto, ttemp := d, curk := false, draws := s.draws + 1 }

/-- R106 steps 1 to 3: an APPLY is accepted: the fields present are stored, the others left, CURK is
0, the word composed from the updated state is latched, SEQ is 0 and BUSY is 1; nothing has been
emitted yet. -/
def Obligations.ApplyUpdatesThenComposes : Prop :=
  ∀ (m : Option Mode) (t : Option Temp) (s : State), s.busy = false → ∃ w : CmdWord,
    exec (.compose (m.getD s.mode) (t.getD s.ttemp).toInt) s =
      .next { s with result := some (.word w) } ∧
    exec (.apply m t) s = .next { s with
      mode := m.getD s.mode, ttemp := t.getD s.ttemp, curk := false, cwl := w, seq := 0#9,
      busy := true }

/-- R109: STATE responds `{000, MODE, CURK, 00, TTEMP}` and changes no state. -/
def Obligations.StateRespondsTheState : Prop :=
  ∀ s : State, s.busy = false →
    exec .state s = .next { s with trace := s.trace ++
      [.respond (0#3 ++ s.mode.toBits ++ BitVec.ofBool s.curk ++ 0#2 ++ s.ttemp)] }

/-- R110, R20: CAPS responds the word with `0b11ch00` in its low bits, `c` and `h` the two open
parameters, and changes no state. -/
def Obligations.CapsRespondsTheCapabilities : Prop :=
  ∀ s : State, s.busy = false →
    exec .caps s = .next { s with trace := s.trace ++ [.respond (0#10 ++ 0b11#2 ++
      BitVec.ofBool Config.supportsCool ++ BitVec.ofBool Config.supportsHeat ++ 0b00#2)] }

/-- R108, R118: a request presented while BUSY is 1 is neither taken nor lost: it stays offered, in
front, and nothing else changes. -/
def Obligations.RequestIsHeldWhileBusy : Prop :=
  ∀ (i : Instr) (w : PortWord) (s : State), s.busy = true → encode i = some (.req16 w) →
    exec i s = .next { s with host := .offer w :: s.host }

/-- R108, R42 (b), R136: while BUSY is 1 a step takes no request and changes neither MODE nor TTEMP
nor the word being sent, unless it is the last beat, after which the word is forgotten. -/
def Obligations.NothingIntrudesOnAnApply : Prop :=
  ∀ s t : State, s.busy = true → step s = .next t →
    t.host = s.host ∧ t.mode = s.mode ∧ t.ttemp = s.ttemp ∧ t.curk = s.curk ∧
    t.bench = s.bench ∧ t.pulses = s.pulses ∧ (t.busy = true → t.cwl = s.cwl)

/-- R137, R103, and for the publish words R107 (h): equal requests on equal MODE and TTEMP send equal
trains and publish equal words, whatever else the two states hold, with media that take every beat
(log 7). -/
def Obligations.EqualStateEqualRequestEqualTrain : Prop :=
  ∀ (s₁ s₂ : State) (m : Option Mode) (t : Option Temp),
    s₁.busy = false → s₂.busy = false → s₁.rst = false → s₂.rst = false →
    (∀ a, a ∈ s₁.medium → a = true) → (∀ a, a ∈ s₂.medium → a = true) →
    s₁.mediumLevel = true → s₂.mediumLevel = true →
    m.getD s₁.mode = m.getD s₂.mode → t.getD s₁.ttemp = t.getD s₂.ttemp →
    ∃ (a₁ a₂ t₁ t₂ : State) (es : List Event),
      exec (.apply m t) s₁ = .next a₁ ∧ exec (.apply m t) s₂ = .next a₂ ∧
      runSteps 100 a₁ = .next t₁ ∧ runSteps 100 a₂ = .next t₂ ∧
      es.length = 101 ∧ t₁.trace = s₁.trace ++ es ∧ t₂.trace = s₂.trace ++ es ∧
      t₁.busy = false ∧ t₂.busy = false

/-! ## Steps, reset and the whole machine (10, 20, 60, 70) -/

/-- A step runs the instruction that is decoded from SEQ while BUSY is 1 (R61), from the bench slot
or from the word offered on the command port while BUSY is 0 (R59, R108); the request or the bench
item is used up, and nothing else is changed around the instruction. -/
def Obligations.StepRunsTheDecodedInstruction : Prop :=
  ∀ (i : Instr) (s : State), s.rst = false →
    (s.busy = true → decode (.seq9 s.seq) = .ok i → step s = exec i s) ∧
    (∀ w rest, s.busy = false → s.bench = none → s.host = .offer w :: rest →
      decode (.req16 w) = .ok i → step s = exec i { s with host := rest }) ∧
    (∀ w, s.busy = false → s.bench = some (.word w) → decode (.cw24 w) = .ok i →
      step s = exec i { s with bench := none }) ∧
    (s.busy = false → s.bench = some (.op i) → step s = exec i { s with bench := none })

/-- R130, R132: with nothing offered the block is idle and every register is retained. -/
def Obligations.IdleStepRetainsEverything : Prop :=
  ∀ (s : State) (rest : List HostMove), s.rst = false → s.busy = false → s.bench = none →
    (s.host = [] → step s = .next s) ∧
    (s.host = .idle :: rest → step s = .next { s with host := rest })

/-- R67: the reserved request words are exactly those with bits 9:8 not `00`, and the model refuses
each when it is offered. -/
def Obligations.ReservedRequestsAreRefused : Prop :=
  ∀ w : PortWord,
    ((∃ r, decode (.req16 w) = .error r) ↔ w.extractLsb' 8 2 ≠ 0#2) ∧
    ∀ (s : State) (rest : List HostMove), w.extractLsb' 8 2 ≠ 0#2 → s.rst = false →
      s.busy = false → s.bench = none → s.host = .offer w :: rest →
      step s = .refused .reservedRequest

/-- R26, R29, and the values of R31 that the spec gives: after reset MODE is AUTO, CURK, BUSY and SEQ
are 0, nothing has been emitted and the command port is ready. -/
def Obligations.ResetState : Prop :=
  State.reset.mode = .auto ∧ State.reset.curk = false ∧ State.reset.busy = false ∧
    State.reset.seq = 0#9 ∧ State.reset.trace = [] ∧ State.reset.portReady = true

/-- R131, R29: a reset while idle puts every register at its reset value and emits nothing; TTEMP and
CWL are then unspecified (the model's free values, logs 1 and 2). R124: a reset while BUSY is 1 is
refused. -/
def Obligations.ResetTakesEffectWhenIdle : Prop :=
  ∀ s : State, s.rst = true →
    (s.busy = false → ∃ (d : Temp) (w : CmdWord), step s = .next { s with
      mode := .auto, ttemp := d, curk := false, busy := false, seq := 0#9, cwl := w, rst := false,
      draws := s.draws + 1 }) ∧
    (s.busy = true → step s = .refused .resetWhileBusy)

/-- The reset state meets the invariant of the registers (R16, R18, R66) and of the trace. -/
def Obligations.ResetMeetsTheInvariants : Prop := State.reset.Inv ∧ State.reset.TraceInv

/-- R16, R18, R19, R47, R66: every step keeps the invariant of the registers. -/
def Obligations.StepKeepsTheRegisterInvariant : Prop :=
  ∀ s t : State, s.Inv → step s = .next t → t.Inv

/-- R112, R44 item 1, R42 (a), R120 (c): every step keeps the trace a sequence of whole commands
followed by the first beats of the APPLY in progress. -/
def Obligations.StepKeepsTheTraceOfWholeCommands : Prop :=
  ∀ s t : State, s.Inv → s.TraceInv → step s = .next t → t.TraceInv

/-- R113: the block always goes on: from a state that meets the invariant, with no reset while busy,
nothing exercised on its own and no reserved request offered, a step answers a next state. -/
def Obligations.StepAlwaysAnswersNext : Prop :=
  ∀ s : State, s.Inv → s.bench = none → (s.rst = true → s.busy = false) →
    (∀ w rest, s.host = .offer w :: rest → w.extractLsb' 8 2 = 0#2) → ∃ t, step s = .next t

/-- R24, R112: without a reset or an operation exercised on its own, only an INIT or an APPLY that
was offered changes MODE or TTEMP, and only an APPLY that was offered raises BUSY. -/
def Obligations.OnlyHostCommandsWriteTheClimate : Prop :=
  ∀ s t : State, s.rst = false → s.bench = none → step s = .next t →
    (t.mode ≠ s.mode ∨ t.ttemp ≠ s.ttemp ∨ (s.busy = false ∧ t.busy = true) →
      s.busy = false ∧ ∃ w rest i, s.host = .offer w :: rest ∧ decode (.req16 w) = .ok i ∧
        ((∃ m τ, i = .apply m τ) ∨ (t.busy = false ∧ ∃ p, i = .init p)))

/-- R45: from the acceptance of an APPLY until its publish event an observer's snapshot does not
change. -/
def Obligations.ObserverLagsUntilPublish : Prop :=
  ∀ s t : State, step s = .next t → (s.busy = false ∨ t.busy = true) →
    t.lastPublished = s.lastPublished

/-! ## Encodings (30_encoding.md) -/

/-- R54, R59, R61: decoding the word of an encodable instruction gives the instruction back, with
every operand at every value the encoding admits. -/
def Obligations.DecodeOfEncodeIsTheInstruction : Prop :=
  ∀ i : Instr, i.encodable = true → ∃ c, encode i = some c ∧ decode c = .ok i

/-- What a decoder reads is well formed and encodable; a sequencer position and a command word are
the very words that the encoder gives back. -/
def Obligations.EncodeOfDecodeIsTheWord : Prop :=
  ∀ (c : Code) (i : Instr), decode c = .ok i → i.wellFormed = true ∧ i.encodable = true ∧
    (∀ q, c = .seq9 q → encode i = some c) ∧ (∀ w, c = .cw24 w → encode i = some c)

/-- R58: the bits of a request word that take part in no decision: clearing them (bit 10 for INIT,
the `mode` and `temp` fields that are not present, everything but `op` for STATE and CAPS) gives the
word that the encoder writes. -/
def Obligations.IgnoredRequestBits : Prop :=
  ∀ (w : PortWord) (i : Instr), decode (.req16 w) = .ok i →
    encode i = some (.req16 (w &&& match i with
      | .init none => 0xE300#16
      | .init (some _) => 0xFBFF#16
      | .apply none none => 0xE700#16
      | .apply (some _) none => 0xFF00#16
      | .apply none (some _) => 0xE7FF#16
      | .apply (some _) (some _) => 0xFFFF#16
      | _ => 0xC300#16))

/-- R69: the word of an assembler line is the word that the encoder gives for the instruction that
the line names, and exactly the lines with a temperature in -128..127, or none, have one. -/
def Obligations.AssemblerAgreesWithEncoder : Prop :=
  ∀ line : AsmLine,
    (∀ w, assembleLine line = some w →
      encode line.toInstr = some (.req16 w) ∧ decode (.req16 w) = .ok line.toInstr) ∧
    (assembleLine line = none ↔
      (∃ m T, line = .init (some (m, T)) ∧ ¬(-128 ≤ T ∧ T ≤ 127)) ∨
      (∃ m T, line = .apply m (some T) ∧ ¬(-128 ≤ T ∧ T ≤ 127)))

/-- Words of R54, R59 and R61 written out bit by bit. -/
def Obligations.SampleWordsDecode : Prop :=
  decode (.req16 0b0011100000011110#16) = .ok (.init (some (.heat, 30#8))) ∧
  decode (.req16 0b0111010000010110#16) = .ok (.apply (some .cool) (some 22#8)) ∧
  decode (.req16 0b1001110011111111#16) = .ok .state ∧
  decode (.seq9 0b001101111#9) = .ok (.emitBit false 2 true 7) ∧
  decode (.seq9 0b110000000#9) = .ok (.emitFtr true) ∧
  decode (.cw24 0b101100101011111101110000#24) = .ok (.composeCool 22)
end

