-- ==== Sys2Proof/Laws/State.lean ====
section
/-!
SUPPORT. One lemma for each field and each update of the state, true by definition: later proofs cite
these and unfold no record update.
-/

namespace Sys2Proof.Machine

/-! ### emitAll -/

@[simp] theorem State.emitAll_mode (s : State) (ps : List Pair) :
    (s.emitAll ps).mode = s.mode := rfl
@[simp] theorem State.emitAll_ttemp (s : State) (ps : List Pair) :
    (s.emitAll ps).ttemp = s.ttemp := rfl
@[simp] theorem State.emitAll_curk (s : State) (ps : List Pair) :
    (s.emitAll ps).curk = s.curk := rfl
@[simp] theorem State.emitAll_busy (s : State) (ps : List Pair) :
    (s.emitAll ps).busy = s.busy := rfl
@[simp] theorem State.emitAll_seq (s : State) (ps : List Pair) : (s.emitAll ps).seq = s.seq := rfl
@[simp] theorem State.emitAll_cwl (s : State) (ps : List Pair) : (s.emitAll ps).cwl = s.cwl := rfl
@[simp] theorem State.emitAll_trace (s : State) (ps : List Pair) :
    (s.emitAll ps).trace = s.trace := rfl
@[simp] theorem State.emitAll_pulses (s : State) (ps : List Pair) :
    (s.emitAll ps).pulses = s.pulses ++ ps := rfl
@[simp] theorem State.emitAll_result (s : State) (ps : List Pair) :
    (s.emitAll ps).result = s.result := rfl
@[simp] theorem State.emitAll_host (s : State) (ps : List Pair) :
    (s.emitAll ps).host = s.host := rfl
@[simp] theorem State.emitAll_medium (s : State) (ps : List Pair) :
    (s.emitAll ps).medium = s.medium := rfl
@[simp] theorem State.emitAll_mediumLevel (s : State) (ps : List Pair) :
    (s.emitAll ps).mediumLevel = s.mediumLevel := rfl
@[simp] theorem State.emitAll_rst (s : State) (ps : List Pair) : (s.emitAll ps).rst = s.rst := rfl
@[simp] theorem State.emitAll_bench (s : State) (ps : List Pair) :
    (s.emitAll ps).bench = s.bench := rfl
@[simp] theorem State.emitAll_draws (s : State) (ps : List Pair) :
    (s.emitAll ps).draws = s.draws := rfl

/-! ### answer -/

@[simp] theorem State.answer_mode (s : State) (v : Value) : (s.answer v).mode = s.mode := rfl
@[simp] theorem State.answer_ttemp (s : State) (v : Value) : (s.answer v).ttemp = s.ttemp := rfl
@[simp] theorem State.answer_curk (s : State) (v : Value) : (s.answer v).curk = s.curk := rfl
@[simp] theorem State.answer_busy (s : State) (v : Value) : (s.answer v).busy = s.busy := rfl
@[simp] theorem State.answer_seq (s : State) (v : Value) : (s.answer v).seq = s.seq := rfl
@[simp] theorem State.answer_cwl (s : State) (v : Value) : (s.answer v).cwl = s.cwl := rfl
@[simp] theorem State.answer_trace (s : State) (v : Value) : (s.answer v).trace = s.trace := rfl
@[simp] theorem State.answer_pulses (s : State) (v : Value) : (s.answer v).pulses = s.pulses := rfl
@[simp] theorem State.answer_result (s : State) (v : Value) : (s.answer v).result = some v := rfl
@[simp] theorem State.answer_host (s : State) (v : Value) : (s.answer v).host = s.host := rfl
@[simp] theorem State.answer_medium (s : State) (v : Value) : (s.answer v).medium = s.medium := rfl
@[simp] theorem State.answer_mediumLevel (s : State) (v : Value) :
    (s.answer v).mediumLevel = s.mediumLevel := rfl
@[simp] theorem State.answer_rst (s : State) (v : Value) : (s.answer v).rst = s.rst := rfl
@[simp] theorem State.answer_bench (s : State) (v : Value) : (s.answer v).bench = s.bench := rfl
@[simp] theorem State.answer_draws (s : State) (v : Value) : (s.answer v).draws = s.draws := rfl

/-! ### output -/

@[simp] theorem State.output_mode (s : State) (es : List Event) : (s.output es).mode = s.mode := rfl
@[simp] theorem State.output_ttemp (s : State) (es : List Event) :
    (s.output es).ttemp = s.ttemp := rfl
@[simp] theorem State.output_curk (s : State) (es : List Event) : (s.output es).curk = s.curk := rfl
@[simp] theorem State.output_busy (s : State) (es : List Event) : (s.output es).busy = s.busy := rfl
@[simp] theorem State.output_seq (s : State) (es : List Event) : (s.output es).seq = s.seq := rfl
@[simp] theorem State.output_cwl (s : State) (es : List Event) : (s.output es).cwl = s.cwl := rfl
@[simp] theorem State.output_trace (s : State) (es : List Event) :
    (s.output es).trace = s.trace ++ es := rfl
@[simp] theorem State.output_pulses (s : State) (es : List Event) :
    (s.output es).pulses = s.pulses := rfl
@[simp] theorem State.output_result (s : State) (es : List Event) :
    (s.output es).result = s.result := rfl
@[simp] theorem State.output_host (s : State) (es : List Event) : (s.output es).host = s.host := rfl
@[simp] theorem State.output_medium (s : State) (es : List Event) :
    (s.output es).medium = s.medium := rfl
@[simp] theorem State.output_mediumLevel (s : State) (es : List Event) :
    (s.output es).mediumLevel = s.mediumLevel := rfl
@[simp] theorem State.output_rst (s : State) (es : List Event) : (s.output es).rst = s.rst := rfl
@[simp] theorem State.output_bench (s : State) (es : List Event) :
    (s.output es).bench = s.bench := rfl
@[simp] theorem State.output_draws (s : State) (es : List Event) :
    (s.output es).draws = s.draws := rfl

/-! ### clearCurk -/

@[simp] theorem State.clearCurk_mode (s : State) : s.clearCurk.mode = s.mode := rfl
@[simp] theorem State.clearCurk_ttemp (s : State) : s.clearCurk.ttemp = s.ttemp := rfl
@[simp] theorem State.clearCurk_curk (s : State) : s.clearCurk.curk = false := rfl
@[simp] theorem State.clearCurk_busy (s : State) : s.clearCurk.busy = s.busy := rfl
@[simp] theorem State.clearCurk_seq (s : State) : s.clearCurk.seq = s.seq := rfl
@[simp] theorem State.clearCurk_cwl (s : State) : s.clearCurk.cwl = s.cwl := rfl
@[simp] theorem State.clearCurk_trace (s : State) : s.clearCurk.trace = s.trace := rfl
@[simp] theorem State.clearCurk_pulses (s : State) : s.clearCurk.pulses = s.pulses := rfl
@[simp] theorem State.clearCurk_result (s : State) : s.clearCurk.result = s.result := rfl
@[simp] theorem State.clearCurk_host (s : State) : s.clearCurk.host = s.host := rfl
@[simp] theorem State.clearCurk_medium (s : State) : s.clearCurk.medium = s.medium := rfl
@[simp] theorem State.clearCurk_mediumLevel (s : State) :
    s.clearCurk.mediumLevel = s.mediumLevel := rfl
@[simp] theorem State.clearCurk_rst (s : State) : s.clearCurk.rst = s.rst := rfl
@[simp] theorem State.clearCurk_bench (s : State) : s.clearCurk.bench = s.bench := rfl
@[simp] theorem State.clearCurk_draws (s : State) : s.clearCurk.draws = s.draws := rfl

/-! ### raiseBusy -/

@[simp] theorem State.raiseBusy_mode (s : State) : s.raiseBusy.mode = s.mode := rfl
@[simp] theorem State.raiseBusy_ttemp (s : State) : s.raiseBusy.ttemp = s.ttemp := rfl
@[simp] theorem State.raiseBusy_curk (s : State) : s.raiseBusy.curk = s.curk := rfl
@[simp] theorem State.raiseBusy_busy (s : State) : s.raiseBusy.busy = true := rfl
@[simp] theorem State.raiseBusy_seq (s : State) : s.raiseBusy.seq = s.seq := rfl
@[simp] theorem State.raiseBusy_cwl (s : State) : s.raiseBusy.cwl = s.cwl := rfl
@[simp] theorem State.raiseBusy_trace (s : State) : s.raiseBusy.trace = s.trace := rfl
@[simp] theorem State.raiseBusy_pulses (s : State) : s.raiseBusy.pulses = s.pulses := rfl
@[simp] theorem State.raiseBusy_result (s : State) : s.raiseBusy.result = s.result := rfl
@[simp] theorem State.raiseBusy_host (s : State) : s.raiseBusy.host = s.host := rfl
@[simp] theorem State.raiseBusy_medium (s : State) : s.raiseBusy.medium = s.medium := rfl
@[simp] theorem State.raiseBusy_mediumLevel (s : State) :
    s.raiseBusy.mediumLevel = s.mediumLevel := rfl
@[simp] theorem State.raiseBusy_rst (s : State) : s.raiseBusy.rst = s.rst := rfl
@[simp] theorem State.raiseBusy_bench (s : State) : s.raiseBusy.bench = s.bench := rfl
@[simp] theorem State.raiseBusy_draws (s : State) : s.raiseBusy.draws = s.draws := rfl

/-! ### dropBusy -/

@[simp] theorem State.dropBusy_mode (s : State) : s.dropBusy.mode = s.mode := rfl
@[simp] theorem State.dropBusy_ttemp (s : State) : s.dropBusy.ttemp = s.ttemp := rfl
@[simp] theorem State.dropBusy_curk (s : State) : s.dropBusy.curk = s.curk := rfl
@[simp] theorem State.dropBusy_busy (s : State) : s.dropBusy.busy = false := rfl
@[simp] theorem State.dropBusy_seq (s : State) : s.dropBusy.seq = s.seq := rfl
@[simp] theorem State.dropBusy_cwl (s : State) : s.dropBusy.cwl = s.cwl := rfl
@[simp] theorem State.dropBusy_trace (s : State) : s.dropBusy.trace = s.trace := rfl
@[simp] theorem State.dropBusy_pulses (s : State) : s.dropBusy.pulses = s.pulses := rfl
@[simp] theorem State.dropBusy_result (s : State) : s.dropBusy.result = s.result := rfl
@[simp] theorem State.dropBusy_host (s : State) : s.dropBusy.host = s.host := rfl
@[simp] theorem State.dropBusy_medium (s : State) : s.dropBusy.medium = s.medium := rfl
@[simp] theorem State.dropBusy_mediumLevel (s : State) :
    s.dropBusy.mediumLevel = s.mediumLevel := rfl
@[simp] theorem State.dropBusy_rst (s : State) : s.dropBusy.rst = s.rst := rfl
@[simp] theorem State.dropBusy_bench (s : State) : s.dropBusy.bench = s.bench := rfl
@[simp] theorem State.dropBusy_draws (s : State) : s.dropBusy.draws = s.draws := rfl

/-! ### setClimate -/

@[simp] theorem State.setClimate_mode (s : State) (m : Mode) (t : Temp) :
    (s.setClimate m t).mode = m := rfl
@[simp] theorem State.setClimate_ttemp (s : State) (m : Mode) (t : Temp) :
    (s.setClimate m t).ttemp = t := rfl
@[simp] theorem State.setClimate_curk (s : State) (m : Mode) (t : Temp) :
    (s.setClimate m t).curk = s.curk := rfl
@[simp] theorem State.setClimate_busy (s : State) (m : Mode) (t : Temp) :
    (s.setClimate m t).busy = s.busy := rfl
@[simp] theorem State.setClimate_seq (s : State) (m : Mode) (t : Temp) :
    (s.setClimate m t).seq = s.seq := rfl
@[simp] theorem State.setClimate_cwl (s : State) (m : Mode) (t : Temp) :
    (s.setClimate m t).cwl = s.cwl := rfl
@[simp] theorem State.setClimate_trace (s : State) (m : Mode) (t : Temp) :
    (s.setClimate m t).trace = s.trace := rfl
@[simp] theorem State.setClimate_pulses (s : State) (m : Mode) (t : Temp) :
    (s.setClimate m t).pulses = s.pulses := rfl
@[simp] theorem State.setClimate_result (s : State) (m : Mode) (t : Temp) :
    (s.setClimate m t).result = s.result := rfl
@[simp] theorem State.setClimate_host (s : State) (m : Mode) (t : Temp) :
    (s.setClimate m t).host = s.host := rfl
@[simp] theorem State.setClimate_medium (s : State) (m : Mode) (t : Temp) :
    (s.setClimate m t).medium = s.medium := rfl
@[simp] theorem State.setClimate_mediumLevel (s : State) (m : Mode) (t : Temp) :
    (s.setClimate m t).mediumLevel = s.mediumLevel := rfl
@[simp] theorem State.setClimate_rst (s : State) (m : Mode) (t : Temp) :
    (s.setClimate m t).rst = s.rst := rfl
@[simp] theorem State.setClimate_bench (s : State) (m : Mode) (t : Temp) :
    (s.setClimate m t).bench = s.bench := rfl
@[simp] theorem State.setClimate_draws (s : State) (m : Mode) (t : Temp) :
    (s.setClimate m t).draws = s.draws := rfl

/-! ### setDefaultClimate -/

@[simp] theorem State.setDefaultClimate_mode (s : State) : s.setDefaultClimate.mode = .auto := rfl
@[simp] theorem State.setDefaultClimate_ttemp (s : State) :
    s.setDefaultClimate.ttemp = Config.tempDefault s.draws := rfl
@[simp] theorem State.setDefaultClimate_curk (s : State) : s.setDefaultClimate.curk = s.curk := rfl
@[simp] theorem State.setDefaultClimate_busy (s : State) : s.setDefaultClimate.busy = s.busy := rfl
@[simp] theorem State.setDefaultClimate_seq (s : State) : s.setDefaultClimate.seq = s.seq := rfl
@[simp] theorem State.setDefaultClimate_cwl (s : State) : s.setDefaultClimate.cwl = s.cwl := rfl
@[simp] theorem State.setDefaultClimate_trace (s : State) :
    s.setDefaultClimate.trace = s.trace := rfl
@[simp] theorem State.setDefaultClimate_pulses (s : State) :
    s.setDefaultClimate.pulses = s.pulses := rfl
@[simp] theorem State.setDefaultClimate_result (s : State) :
    s.setDefaultClimate.result = s.result := rfl
@[simp] theorem State.setDefaultClimate_host (s : State) : s.setDefaultClimate.host = s.host := rfl
@[simp] theorem State.setDefaultClimate_medium (s : State) :
    s.setDefaultClimate.medium = s.medium := rfl
@[simp] theorem State.setDefaultClimate_mediumLevel (s : State) :
    s.setDefaultClimate.mediumLevel = s.mediumLevel := rfl
@[simp] theorem State.setDefaultClimate_rst (s : State) : s.setDefaultClimate.rst = s.rst := rfl
@[simp] theorem State.setDefaultClimate_bench (s : State) :
    s.setDefaultClimate.bench = s.bench := rfl
@[simp] theorem State.setDefaultClimate_draws (s : State) :
    s.setDefaultClimate.draws = s.draws + 1 := rfl

/-! ### loadTrain -/

@[simp] theorem State.loadTrain_mode (s : State) (cw : CmdWord) :
    (s.loadTrain cw).mode = s.mode := rfl
@[simp] theorem State.loadTrain_ttemp (s : State) (cw : CmdWord) :
    (s.loadTrain cw).ttemp = s.ttemp := rfl
@[simp] theorem State.loadTrain_curk (s : State) (cw : CmdWord) :
    (s.loadTrain cw).curk = s.curk := rfl
@[simp] theorem State.loadTrain_busy (s : State) (cw : CmdWord) :
    (s.loadTrain cw).busy = s.busy := rfl
@[simp] theorem State.loadTrain_seq (s : State) (cw : CmdWord) : (s.loadTrain cw).seq = 0#9 := rfl
@[simp] theorem State.loadTrain_cwl (s : State) (cw : CmdWord) : (s.loadTrain cw).cwl = cw := rfl
@[simp] theorem State.loadTrain_trace (s : State) (cw : CmdWord) :
    (s.loadTrain cw).trace = s.trace := rfl
@[simp] theorem State.loadTrain_pulses (s : State) (cw : CmdWord) :
    (s.loadTrain cw).pulses = s.pulses := rfl
@[simp] theorem State.loadTrain_result (s : State) (cw : CmdWord) :
    (s.loadTrain cw).result = s.result := rfl
@[simp] theorem State.loadTrain_host (s : State) (cw : CmdWord) :
    (s.loadTrain cw).host = s.host := rfl
@[simp] theorem State.loadTrain_medium (s : State) (cw : CmdWord) :
    (s.loadTrain cw).medium = s.medium := rfl
@[simp] theorem State.loadTrain_mediumLevel (s : State) (cw : CmdWord) :
    (s.loadTrain cw).mediumLevel = s.mediumLevel := rfl
@[simp] theorem State.loadTrain_rst (s : State) (cw : CmdWord) : (s.loadTrain cw).rst = s.rst := rfl
@[simp] theorem State.loadTrain_bench (s : State) (cw : CmdWord) :
    (s.loadTrain cw).bench = s.bench := rfl
@[simp] theorem State.loadTrain_draws (s : State) (cw : CmdWord) :
    (s.loadTrain cw).draws = s.draws := rfl

/-! ### setSeq -/

@[simp] theorem State.setSeq_mode (s : State) (q : SeqPos) : (s.setSeq q).mode = s.mode := rfl
@[simp] theorem State.setSeq_ttemp (s : State) (q : SeqPos) : (s.setSeq q).ttemp = s.ttemp := rfl
@[simp] theorem State.setSeq_curk (s : State) (q : SeqPos) : (s.setSeq q).curk = s.curk := rfl
@[simp] theorem State.setSeq_busy (s : State) (q : SeqPos) : (s.setSeq q).busy = s.busy := rfl
@[simp] theorem State.setSeq_seq (s : State) (q : SeqPos) : (s.setSeq q).seq = q := rfl
@[simp] theorem State.setSeq_cwl (s : State) (q : SeqPos) : (s.setSeq q).cwl = s.cwl := rfl
@[simp] theorem State.setSeq_trace (s : State) (q : SeqPos) : (s.setSeq q).trace = s.trace := rfl
@[simp] theorem State.setSeq_pulses (s : State) (q : SeqPos) : (s.setSeq q).pulses = s.pulses := rfl
@[simp] theorem State.setSeq_result (s : State) (q : SeqPos) : (s.setSeq q).result = s.result := rfl
@[simp] theorem State.setSeq_host (s : State) (q : SeqPos) : (s.setSeq q).host = s.host := rfl
@[simp] theorem State.setSeq_medium (s : State) (q : SeqPos) : (s.setSeq q).medium = s.medium := rfl
@[simp] theorem State.setSeq_mediumLevel (s : State) (q : SeqPos) :
    (s.setSeq q).mediumLevel = s.mediumLevel := rfl
@[simp] theorem State.setSeq_rst (s : State) (q : SeqPos) : (s.setSeq q).rst = s.rst := rfl
@[simp] theorem State.setSeq_bench (s : State) (q : SeqPos) : (s.setSeq q).bench = s.bench := rfl
@[simp] theorem State.setSeq_draws (s : State) (q : SeqPos) : (s.setSeq q).draws = s.draws := rfl

/-! ### forgetWord -/

@[simp] theorem State.forgetWord_mode (s : State) : s.forgetWord.mode = s.mode := rfl
@[simp] theorem State.forgetWord_ttemp (s : State) : s.forgetWord.ttemp = s.ttemp := rfl
@[simp] theorem State.forgetWord_curk (s : State) : s.forgetWord.curk = s.curk := rfl
@[simp] theorem State.forgetWord_busy (s : State) : s.forgetWord.busy = s.busy := rfl
@[simp] theorem State.forgetWord_seq (s : State) : s.forgetWord.seq = s.seq := rfl
@[simp] theorem State.forgetWord_cwl (s : State) : s.forgetWord.cwl = Config.idleWord s.draws := rfl
@[simp] theorem State.forgetWord_trace (s : State) : s.forgetWord.trace = s.trace := rfl
@[simp] theorem State.forgetWord_pulses (s : State) : s.forgetWord.pulses = s.pulses := rfl
@[simp] theorem State.forgetWord_result (s : State) : s.forgetWord.result = s.result := rfl
@[simp] theorem State.forgetWord_host (s : State) : s.forgetWord.host = s.host := rfl
@[simp] theorem State.forgetWord_medium (s : State) : s.forgetWord.medium = s.medium := rfl
@[simp] theorem State.forgetWord_mediumLevel (s : State) :
    s.forgetWord.mediumLevel = s.mediumLevel := rfl
@[simp] theorem State.forgetWord_rst (s : State) : s.forgetWord.rst = s.rst := rfl
@[simp] theorem State.forgetWord_bench (s : State) : s.forgetWord.bench = s.bench := rfl
@[simp] theorem State.forgetWord_draws (s : State) : s.forgetWord.draws = s.draws + 1 := rfl

/-! ### holdRequest -/

@[simp] theorem State.holdRequest_mode (s : State) (w : PortWord) :
    (s.holdRequest w).mode = s.mode := rfl
@[simp] theorem State.holdRequest_ttemp (s : State) (w : PortWord) :
    (s.holdRequest w).ttemp = s.ttemp := rfl
@[simp] theorem State.holdRequest_curk (s : State) (w : PortWord) :
    (s.holdRequest w).curk = s.curk := rfl
@[simp] theorem State.holdRequest_busy (s : State) (w : PortWord) :
    (s.holdRequest w).busy = s.busy := rfl
@[simp] theorem State.holdRequest_seq (s : State) (w : PortWord) :
    (s.holdRequest w).seq = s.seq := rfl
@[simp] theorem State.holdRequest_cwl (s : State) (w : PortWord) :
    (s.holdRequest w).cwl = s.cwl := rfl
@[simp] theorem State.holdRequest_trace (s : State) (w : PortWord) :
    (s.holdRequest w).trace = s.trace := rfl
@[simp] theorem State.holdRequest_pulses (s : State) (w : PortWord) :
    (s.holdRequest w).pulses = s.pulses := rfl
@[simp] theorem State.holdRequest_result (s : State) (w : PortWord) :
    (s.holdRequest w).result = s.result := rfl
@[simp] theorem State.holdRequest_host (s : State) (w : PortWord) :
    (s.holdRequest w).host = .offer w :: s.host := rfl
@[simp] theorem State.holdRequest_medium (s : State) (w : PortWord) :
    (s.holdRequest w).medium = s.medium := rfl
@[simp] theorem State.holdRequest_mediumLevel (s : State) (w : PortWord) :
    (s.holdRequest w).mediumLevel = s.mediumLevel := rfl
@[simp] theorem State.holdRequest_rst (s : State) (w : PortWord) :
    (s.holdRequest w).rst = s.rst := rfl
@[simp] theorem State.holdRequest_bench (s : State) (w : PortWord) :
    (s.holdRequest w).bench = s.bench := rfl
@[simp] theorem State.holdRequest_draws (s : State) (w : PortWord) :
    (s.holdRequest w).draws = s.draws := rfl

/-! ### mediumAnswered -/

@[simp] theorem State.mediumAnswered_mode (s : State) : s.mediumAnswered.mode = s.mode := rfl
@[simp] theorem State.mediumAnswered_ttemp (s : State) : s.mediumAnswered.ttemp = s.ttemp := rfl
@[simp] theorem State.mediumAnswered_curk (s : State) : s.mediumAnswered.curk = s.curk := rfl
@[simp] theorem State.mediumAnswered_busy (s : State) : s.mediumAnswered.busy = s.busy := rfl
@[simp] theorem State.mediumAnswered_seq (s : State) : s.mediumAnswered.seq = s.seq := rfl
@[simp] theorem State.mediumAnswered_cwl (s : State) : s.mediumAnswered.cwl = s.cwl := rfl
@[simp] theorem State.mediumAnswered_trace (s : State) : s.mediumAnswered.trace = s.trace := rfl
@[simp] theorem State.mediumAnswered_pulses (s : State) : s.mediumAnswered.pulses = s.pulses := rfl
@[simp] theorem State.mediumAnswered_result (s : State) : s.mediumAnswered.result = s.result := rfl
@[simp] theorem State.mediumAnswered_host (s : State) : s.mediumAnswered.host = s.host := rfl
@[simp] theorem State.mediumAnswered_medium (s : State) :
    s.mediumAnswered.medium = s.medium.tail := rfl
@[simp] theorem State.mediumAnswered_mediumLevel (s : State) :
    s.mediumAnswered.mediumLevel = s.mediumLevel := rfl
@[simp] theorem State.mediumAnswered_rst (s : State) : s.mediumAnswered.rst = s.rst := rfl
@[simp] theorem State.mediumAnswered_bench (s : State) : s.mediumAnswered.bench = s.bench := rfl
@[simp] theorem State.mediumAnswered_draws (s : State) : s.mediumAnswered.draws = s.draws := rfl

/-! ### benchTaken -/

@[simp] theorem State.benchTaken_mode (s : State) : s.benchTaken.mode = s.mode := rfl
@[simp] theorem State.benchTaken_ttemp (s : State) : s.benchTaken.ttemp = s.ttemp := rfl
@[simp] theorem State.benchTaken_curk (s : State) : s.benchTaken.curk = s.curk := rfl
@[simp] theorem State.benchTaken_busy (s : State) : s.benchTaken.busy = s.busy := rfl
@[simp] theorem State.benchTaken_seq (s : State) : s.benchTaken.seq = s.seq := rfl
@[simp] theorem State.benchTaken_cwl (s : State) : s.benchTaken.cwl = s.cwl := rfl
@[simp] theorem State.benchTaken_trace (s : State) : s.benchTaken.trace = s.trace := rfl
@[simp] theorem State.benchTaken_pulses (s : State) : s.benchTaken.pulses = s.pulses := rfl
@[simp] theorem State.benchTaken_result (s : State) : s.benchTaken.result = s.result := rfl
@[simp] theorem State.benchTaken_host (s : State) : s.benchTaken.host = s.host := rfl
@[simp] theorem State.benchTaken_medium (s : State) : s.benchTaken.medium = s.medium := rfl
@[simp] theorem State.benchTaken_mediumLevel (s : State) :
    s.benchTaken.mediumLevel = s.mediumLevel := rfl
@[simp] theorem State.benchTaken_rst (s : State) : s.benchTaken.rst = s.rst := rfl
@[simp] theorem State.benchTaken_bench (s : State) : s.benchTaken.bench = none := rfl
@[simp] theorem State.benchTaken_draws (s : State) : s.benchTaken.draws = s.draws := rfl

/-! ### setHost -/

@[simp] theorem State.setHost_mode (s : State) (h : List HostMove) :
    (s.setHost h).mode = s.mode := rfl
@[simp] theorem State.setHost_ttemp (s : State) (h : List HostMove) :
    (s.setHost h).ttemp = s.ttemp := rfl
@[simp] theorem State.setHost_curk (s : State) (h : List HostMove) :
    (s.setHost h).curk = s.curk := rfl
@[simp] theorem State.setHost_busy (s : State) (h : List HostMove) :
    (s.setHost h).busy = s.busy := rfl
@[simp] theorem State.setHost_seq (s : State) (h : List HostMove) : (s.setHost h).seq = s.seq := rfl
@[simp] theorem State.setHost_cwl (s : State) (h : List HostMove) : (s.setHost h).cwl = s.cwl := rfl
@[simp] theorem State.setHost_trace (s : State) (h : List HostMove) :
    (s.setHost h).trace = s.trace := rfl
@[simp] theorem State.setHost_pulses (s : State) (h : List HostMove) :
    (s.setHost h).pulses = s.pulses := rfl
@[simp] theorem State.setHost_result (s : State) (h : List HostMove) :
    (s.setHost h).result = s.result := rfl
@[simp] theorem State.setHost_host (s : State) (h : List HostMove) : (s.setHost h).host = h := rfl
@[simp] theorem State.setHost_medium (s : State) (h : List HostMove) :
    (s.setHost h).medium = s.medium := rfl
@[simp] theorem State.setHost_mediumLevel (s : State) (h : List HostMove) :
    (s.setHost h).mediumLevel = s.mediumLevel := rfl
@[simp] theorem State.setHost_rst (s : State) (h : List HostMove) : (s.setHost h).rst = s.rst := rfl
@[simp] theorem State.setHost_bench (s : State) (h : List HostMove) :
    (s.setHost h).bench = s.bench := rfl
@[simp] theorem State.setHost_draws (s : State) (h : List HostMove) :
    (s.setHost h).draws = s.draws := rfl

/-! ### takeReset -/

@[simp] theorem State.takeReset_mode (s : State) : s.takeReset.mode = .auto := rfl
@[simp] theorem State.takeReset_ttemp (s : State) :
    s.takeReset.ttemp = Config.tempDefault s.draws := rfl
@[simp] theorem State.takeReset_curk (s : State) : s.takeReset.curk = false := rfl
@[simp] theorem State.takeReset_busy (s : State) : s.takeReset.busy = false := rfl
@[simp] theorem State.takeReset_seq (s : State) : s.takeReset.seq = 0#9 := rfl
@[simp] theorem State.takeReset_cwl (s : State) : s.takeReset.cwl = Config.idleWord s.draws := rfl
@[simp] theorem State.takeReset_trace (s : State) : s.takeReset.trace = s.trace := rfl
@[simp] theorem State.takeReset_pulses (s : State) : s.takeReset.pulses = s.pulses := rfl
@[simp] theorem State.takeReset_result (s : State) : s.takeReset.result = s.result := rfl
@[simp] theorem State.takeReset_host (s : State) : s.takeReset.host = s.host := rfl
@[simp] theorem State.takeReset_medium (s : State) : s.takeReset.medium = s.medium := rfl
@[simp] theorem State.takeReset_mediumLevel (s : State) :
    s.takeReset.mediumLevel = s.mediumLevel := rfl
@[simp] theorem State.takeReset_rst (s : State) : s.takeReset.rst = false := rfl
@[simp] theorem State.takeReset_bench (s : State) : s.takeReset.bench = s.bench := rfl
@[simp] theorem State.takeReset_draws (s : State) : s.takeReset.draws = s.draws + 1 := rfl

/-! ### finishTrain -/

@[simp] theorem State.finishTrain_mode (s : State) : s.finishTrain.mode = s.mode := rfl
@[simp] theorem State.finishTrain_ttemp (s : State) : s.finishTrain.ttemp = s.ttemp := rfl
@[simp] theorem State.finishTrain_curk (s : State) : s.finishTrain.curk = s.curk := rfl
@[simp] theorem State.finishTrain_busy (s : State) : s.finishTrain.busy = false := rfl
@[simp] theorem State.finishTrain_seq (s : State) : s.finishTrain.seq = 0#9 := rfl
@[simp] theorem State.finishTrain_cwl (s : State) :
    s.finishTrain.cwl = Config.idleWord s.draws := rfl
@[simp] theorem State.finishTrain_trace (s : State) :
    s.finishTrain.trace = s.trace ++ [.publish (stateWord s.mode s.curk s.ttemp)] := rfl
@[simp] theorem State.finishTrain_pulses (s : State) : s.finishTrain.pulses = s.pulses := rfl
@[simp] theorem State.finishTrain_result (s : State) : s.finishTrain.result = s.result := rfl
@[simp] theorem State.finishTrain_host (s : State) : s.finishTrain.host = s.host := rfl
@[simp] theorem State.finishTrain_medium (s : State) : s.finishTrain.medium = s.medium := rfl
@[simp] theorem State.finishTrain_mediumLevel (s : State) :
    s.finishTrain.mediumLevel = s.mediumLevel := rfl
@[simp] theorem State.finishTrain_rst (s : State) : s.finishTrain.rst = s.rst := rfl
@[simp] theorem State.finishTrain_bench (s : State) : s.finishTrain.bench = s.bench := rfl
@[simp] theorem State.finishTrain_draws (s : State) : s.finishTrain.draws = s.draws + 1 := rfl

/-! ### startApply -/

@[simp] theorem State.startApply_mode (s : State) (m : Option Mode) (t : Option Temp) :
    (s.startApply m t).mode = m.getD s.mode := rfl
@[simp] theorem State.startApply_ttemp (s : State) (m : Option Mode) (t : Option Temp) :
    (s.startApply m t).ttemp = t.getD s.ttemp := rfl
@[simp] theorem State.startApply_curk (s : State) (m : Option Mode) (t : Option Temp) :
    (s.startApply m t).curk = false := rfl
@[simp] theorem State.startApply_busy (s : State) (m : Option Mode) (t : Option Temp) :
    (s.startApply m t).busy = true := rfl
@[simp] theorem State.startApply_seq (s : State) (m : Option Mode) (t : Option Temp) :
    (s.startApply m t).seq = 0#9 := rfl
@[simp] theorem State.startApply_cwl (s : State) (m : Option Mode) (t : Option Temp) :
    (s.startApply m t).cwl = composeWord (m.getD s.mode) (sint8 (t.getD s.ttemp)) := rfl
@[simp] theorem State.startApply_trace (s : State) (m : Option Mode) (t : Option Temp) :
    (s.startApply m t).trace = s.trace := rfl
@[simp] theorem State.startApply_pulses (s : State) (m : Option Mode) (t : Option Temp) :
    (s.startApply m t).pulses = s.pulses := rfl
@[simp] theorem State.startApply_result (s : State) (m : Option Mode) (t : Option Temp) :
    (s.startApply m t).result = s.result := rfl
@[simp] theorem State.startApply_host (s : State) (m : Option Mode) (t : Option Temp) :
    (s.startApply m t).host = s.host := rfl
@[simp] theorem State.startApply_medium (s : State) (m : Option Mode) (t : Option Temp) :
    (s.startApply m t).medium = s.medium := rfl
@[simp] theorem State.startApply_mediumLevel (s : State) (m : Option Mode) (t : Option Temp) :
    (s.startApply m t).mediumLevel = s.mediumLevel := rfl
@[simp] theorem State.startApply_rst (s : State) (m : Option Mode) (t : Option Temp) :
    (s.startApply m t).rst = s.rst := rfl
@[simp] theorem State.startApply_bench (s : State) (m : Option Mode) (t : Option Temp) :
    (s.startApply m t).bench = s.bench := rfl
@[simp] theorem State.startApply_draws (s : State) (m : Option Mode) (t : Option Temp) :
    (s.startApply m t).draws = s.draws := rfl

end Sys2Proof.Machine
end

