-- ==== Sys2Proof/Laws/Ops.lean ====
section
/-!
SUPPORT. For each shared operation, what it can do, once: later proofs cite these and do not unfold
the operation.
-/

namespace Sys2Proof.Machine

/-! ### The command port -/

theorem portReady_iff (s : State) : s.portReady = true ↔ s.busy = false := by
  simp [State.portReady]

theorem acceptCommand_idle {s : State} (h : s.busy = false) (w : PortWord) (e : State → State) :
    acceptCommand w e s = .next (e s) := by
  simp [acceptCommand, State.portReady, h]

theorem acceptCommand_busy {s : State} (h : s.busy = true) (w : PortWord) (e : State → State) :
    acceptCommand w e s = .next (s.holdRequest w) := by
  simp [acceptCommand, State.portReady, h]

/-- A host command always answers a next state: its effect when the port is ready, the request held
when it is not. -/
theorem acceptCommand_next {w : PortWord} {e : State → State} {s t : State}
    (h : acceptCommand w e s = .next t) :
    (s.busy = false ∧ t = e s) ∨ (s.busy = true ∧ t = s.holdRequest w) := by
  cases hb : s.busy with
  | false => rw [acceptCommand_idle hb] at h; exact .inl ⟨rfl, by simpa using h.symm⟩
  | true => rw [acceptCommand_busy hb] at h; exact .inr ⟨rfl, by simpa using h.symm⟩

theorem loadPrior_some (s : State) (m : Mode) (t : Temp) :
    s.loadPrior (some (m, t)) = { s with mode := m, ttemp := t, curk := false } := rfl

theorem loadPrior_none (s : State) :
    s.loadPrior none = { s with mode := .auto, ttemp := Config.tempDefault s.draws, curk := false,
                                draws := s.draws + 1 } := rfl

/-! ### The transmit port -/

theorem offers_iff (s : State) (q : SeqPos) : s.offers q = true ↔ s.busy = true ∧ s.seq = q := by
  simp [State.offers]

theorem mediumReady_nil {s : State} (h : s.medium = []) : s.mediumReady = s.mediumLevel := by
  simp [State.mediumReady, h]

theorem mediumReady_cons {s : State} {a : Bool} {as : List Bool} (h : s.medium = a :: as) :
    s.mediumReady = a := by
  simp [State.mediumReady, h]

/-- A medium all of whose answers are `b` answers `b` now, and goes on so. -/
theorem mediumReady_of_all {s : State} {b : Bool} (h : ∀ a, a ∈ s.medium → a = b)
    (hl : s.mediumLevel = b) : s.mediumReady = b := by
  cases hm : s.medium with
  | nil => rw [mediumReady_nil hm, hl]
  | cons a as => rw [mediumReady_cons hm]; exact h a (by simp [hm])

theorem offerBeat_waits {q : SeqPos} {p : Pair} {s : State} {n : Successor} (ho : s.offers q = true)
    (hn : nextPos q = some n) (hr : s.mediumReady = false) :
    offerBeat q p s = .next s.mediumAnswered := by
  simp [offerBeat, ho, hn, hr]

theorem offerBeat_taken {q q' : SeqPos} {p : Pair} {s : State} (ho : s.offers q = true)
    (hn : nextPos q = some (.goto q')) (hr : s.mediumReady = true) :
    offerBeat q p s = .next ((s.mediumAnswered.beatOut q p).setSeq q') := by
  simp [offerBeat, ho, hn, hr]

theorem offerBeat_last {q : SeqPos} {p : Pair} {s : State} (ho : s.offers q = true)
    (hn : nextPos q = some .endOfTrain) (hr : s.mediumReady = true) :
    offerBeat q p s = .next (s.mediumAnswered.beatOut q p).finishTrain := by
  simp [offerBeat, ho, hn, hr]

theorem offerBeat_refused {q : SeqPos} {p : Pair} {s : State} (ho : s.offers q = false) :
    offerBeat q p s = .refused .beatNotOffered := by
  simp [offerBeat, ho]

/-- Everything a micro-step can do when it answers a next state: wait, hand over the beat and go on,
or hand over the last beat, publish and end. -/
theorem offerBeat_next {q : SeqPos} {p : Pair} {s t : State} (h : offerBeat q p s = .next t) :
    s.busy = true ∧ s.seq = q ∧
    ((s.mediumReady = false ∧ t = s.mediumAnswered) ∨
     (∃ q', s.mediumReady = true ∧ nextPos q = some (.goto q') ∧
        t = (s.mediumAnswered.beatOut q p).setSeq q') ∨
     (s.mediumReady = true ∧ nextPos q = some .endOfTrain ∧
        t = (s.mediumAnswered.beatOut q p).finishTrain)) := by
  cases ho : s.offers q with
  | false => rw [offerBeat_refused ho] at h; cases h
  | true =>
    refine ⟨((offers_iff s q).1 ho).1, ((offers_iff s q).1 ho).2, ?_⟩
    cases hn : nextPos q with
    | none => simp [offerBeat, ho, hn] at h
    | some n =>
      cases hr : s.mediumReady with
      | false =>
        rw [offerBeat_waits ho hn hr] at h
        exact .inl ⟨rfl, by simpa using h.symm⟩
      | true =>
        cases n with
        | goto q' =>
          rw [offerBeat_taken ho hn hr] at h
          exact .inr (.inl ⟨q', rfl, rfl, by simpa using h.symm⟩)
        | endOfTrain =>
          rw [offerBeat_last ho hn hr] at h
          exact .inr (.inr ⟨rfl, rfl, by simpa using h.symm⟩)

/-! ### Transmit requests -/

@[simp] theorem beatsFrom_length (hz n i : Nat) (ps : List Pair) :
    (beatsFrom hz n i ps).length = ps.length := by
  induction ps generalizing i with
  | nil => rfl
  | cons p ps ih => simp [beatsFrom, ih]

/-- Beat `k` of a request carries pair `k`. -/
theorem beatsFrom_getElem? (hz n i : Nat) (ps : List Pair) (k : Nat) :
    (beatsFrom hz n i ps)[k]? = ps[k]?.map (mkBeat (i + k == 0) (i + k + 1 == n) hz) := by
  induction ps generalizing i k with
  | nil => simp [beatsFrom]
  | cons p ps ih =>
    cases k with
    | zero => simp [beatsFrom]
    | succ k => simp [beatsFrom, ih, Nat.add_assoc, Nat.add_comm 1 k]

theorem requestBeats_length (hz : Nat) (ps : List Pair) :
    (requestBeats hz ps).length = ps.length := by simp [requestBeats]

theorem requestBeats_getElem? (hz : Nat) (ps : List Pair) (k : Nat) :
    (requestBeats hz ps)[k]? = ps[k]?.map (mkBeat (k == 0) (k + 1 == ps.length) hz) := by
  simp [requestBeats, beatsFrom_getElem?]

/-! ### The table -/

/-- The 14 reads that have a value (R71). -/
theorem lutRead_range {i : Int} {c : BitVec 4} (h : lutRead i = some c) : 0 ≤ i ∧ i ≤ 13 := by
  by_contra hn
  simp [lutRead, hn] at h

theorem lutRead_outside {i : Int} (h : ¬(0 ≤ i ∧ i ≤ 13)) : lutRead i = none := by
  simp [lutRead, h]

/-- TCODE is the table read at the clamped temperature less 17 (R74). -/
theorem lutRead_clamped (T : Int) : lutRead (clampTemp T - 17) = some (tempCode T) := by
  simp [tempCode]

theorem clampTemp_of_range {T : Int} (h : 17 ≤ T ∧ T ≤ 30) : clampTemp T = T := by
  unfold clampTemp tempMin tempMax; split
  · omega
  · split <;> omega

theorem clampTemp_low {T : Int} (h : T ≤ 17) : clampTemp T = 17 := by
  unfold clampTemp tempMin tempMax; split
  · rfl
  · split <;> omega

theorem clampTemp_high {T : Int} (h : 30 ≤ T) : clampTemp T = 30 := by
  unfold clampTemp tempMin tempMax; split
  · omega
  · split <;> omega

@[simp] theorem clampTemp_clampTemp (T : Int) : clampTemp (clampTemp T) = clampTemp T :=
  clampTemp_of_range (clampTemp_bounds T)

theorem tempCode_clampTemp (T : Int) : tempCode (clampTemp T) = tempCode T := by
  have h := lutRead_clamped (clampTemp T)
  rw [clampTemp_clampTemp, lutRead_clamped] at h
  exact (Option.some.inj h).symm

/-! ### The serializer -/

@[simp] theorem bitsMsb_length (value n : Nat) : (bitsMsb value n).length = n := by
  induction n with
  | zero => rfl
  | succ n ih => simp [bitsMsb, ih]

@[simp] theorem bitsLsb_length (value n : Nat) : (bitsLsb value n).length = n := by
  induction n with
  | zero => rfl
  | succ n ih => simp [bitsLsb, ih]

/-- The two orders are the reverse of each other. -/
theorem bitsLsb_eq_reverse (value n : Nat) : bitsLsb value n = (bitsMsb value n).reverse := by
  induction n with
  | zero => rfl
  | succ n ih => simp [bitsLsb, bitsMsb, ih]

theorem bitsLsb_getElem? (value n k : Nat) (h : k < n) :
    (bitsLsb value n)[k]? = some (bitOf value k) := by
  induction n with
  | zero => omega
  | succ n ih =>
    rw [bitsLsb, List.getElem?_append, bitsLsb_length]
    split
    · exact ih ‹_›
    · have : k = n := by omega
      simp [this]

theorem bitsMsb_getElem? (value n k : Nat) (h : k < n) :
    (bitsMsb value n)[k]? = some (bitOf value (n - 1 - k)) := by
  induction n generalizing k with
  | zero => omega
  | succ n ih =>
    cases k with
    | zero => simp [bitsMsb]
    | succ k =>
      simp only [bitsMsb, List.getElem?_cons_succ]
      rw [ih k (by omega)]
      congr 2
      omega

/-- Bit `i` of a value, by division. -/
theorem bitOf_eq (value i : Nat) : bitOf value i = decide (value / 2 ^ i % 2 = 1) := by
  simp [bitOf, Nat.shiftRight_eq_div_pow, Nat.and_one_is_mod]

@[simp] theorem serBits_length (value n : Nat) (order : BitOrder) :
    (serBits value n order).length = n := by
  cases order <;> simp [serBits]

@[simp] theorem serPairs_length (om os zm zs value n : Nat) (order : BitOrder) :
    (serPairs om os zm zs value n order).length = n := by
  simp [serPairs]

/-! ### Sequences of the sequencer -/

@[simp] theorem sendBytePairs_length (b : BitVec 8) : (sendBytePairs b).length = 16 := by
  simp [sendBytePairs, serByte]

@[simp] theorem payloadPairs_length (cw : CmdWord) : (payloadPairs cw).length = 48 := by
  simp [payloadPairs]

@[simp] theorem framePairs_length (cw : CmdWord) : (framePairs cw).length = 50 := by
  simp [framePairs]

@[simp] theorem trainPairs_length (cw : CmdWord) : (trainPairs cw).length = 100 := by
  simp [trainPairs]

end Sys2Proof.Machine
end

