-- ==== Sys2Proof/Laws/Commands.lean ====
section
/-!
SUPPORT. What each host command does (44_command_interface.md), said once for the port ready and
once for the port closed (R108).
-/

namespace Sys2Proof.Machine

theorem exec_init_idle {s : State} (h : s.busy = false) (prior : Option (Mode × Temp)) :
    exec (.init prior) s = .next (s.loadPrior prior) :=
  acceptCommand_idle h (initWord prior) fun u => u.loadPrior prior

theorem exec_apply_idle {s : State} (h : s.busy = false) (m : Option Mode) (t : Option Temp) :
    exec (.apply m t) s = .next (s.startApply m t) :=
  acceptCommand_idle h (applyWord m t) fun u => u.startApply m t

theorem exec_state_idle {s : State} (h : s.busy = false) :
    exec .state s = .next (s.respond (stateWord s.mode s.curk s.ttemp)) :=
  acceptCommand_idle h stateReqWord fun u => u.respond (stateWord u.mode u.curk u.ttemp)

theorem exec_caps_idle {s : State} (h : s.busy = false) :
    exec .caps s = .next (s.respond (capsWord capReg)) :=
  acceptCommand_idle h capsReqWord fun u => u.respond (capsWord capReg)

theorem exec_init_busy {s : State} (h : s.busy = true) (prior : Option (Mode × Temp)) :
    exec (.init prior) s = .next (s.holdRequest (initWord prior)) :=
  acceptCommand_busy h (initWord prior) fun u => u.loadPrior prior

theorem exec_apply_busy {s : State} (h : s.busy = true) (m : Option Mode) (t : Option Temp) :
    exec (.apply m t) s = .next (s.holdRequest (applyWord m t)) :=
  acceptCommand_busy h (applyWord m t) fun u => u.startApply m t

theorem exec_state_busy {s : State} (h : s.busy = true) :
    exec .state s = .next (s.holdRequest stateReqWord) :=
  acceptCommand_busy h stateReqWord fun u => u.respond (stateWord u.mode u.curk u.ttemp)

theorem exec_caps_busy {s : State} (h : s.busy = true) :
    exec .caps s = .next (s.holdRequest capsReqWord) :=
  acceptCommand_busy h capsReqWord fun u => u.respond (capsWord capReg)

/-! ### Every instruction, with the port ready -/

/-- What an instruction can do to the registers while BUSY is 0: INIT and APPLY have their effect, a
beat is refused, and every other operation leaves MODE, TTEMP, CURK, BUSY and SEQ alone; of those only
STATE, CAPS and XMIT let anything leave the block (R24, R112). -/
theorem exec_when_idle {i : Instr} {s t : State} (hb : s.busy = false) (h : exec i s = .next t) :
    (t.mode = s.mode ∧ t.ttemp = s.ttemp ∧ t.curk = s.curk ∧ t.busy = s.busy ∧ t.seq = s.seq ∧
      t.bench = s.bench ∧ (i = .state ∨ i = .caps ∨ (∃ cw, i = .xmit cw) ∨ t.trace = s.trace)) ∨
    (∃ p, i = .init p ∧ t = s.loadPrior p) ∨ (∃ m τ, i = .apply m τ ∧ t = s.startApply m τ) := by
  have hno : ∀ q p, offerBeat q p s = .next t → False := by
    intro q p h
    have := (offerBeat_next h).1
    rw [hb] at this; cases this
  cases i with
  | init p => rw [exec_init_idle hb] at h; cases h; exact .inr (.inl ⟨p, rfl, rfl⟩)
  | apply m τ => rw [exec_apply_idle hb] at h; cases h; exact .inr (.inr ⟨m, τ, rfl, rfl⟩)
  | state =>
    rw [exec_state_idle hb] at h; cases h
    exact .inl ⟨rfl, rfl, rfl, rfl, rfl, rfl, .inl rfl⟩
  | caps =>
    rw [exec_caps_idle hb] at h; cases h
    exact .inl ⟨rfl, rfl, rfl, rfl, rfl, rfl, .inr (.inl rfl)⟩
  | emitHdr f => exact (hno _ _ h).elim
  | emitBit f j v p => exact (hno _ _ h).elim
  | emitFtr f => exact (hno _ _ h).elim
  | tlut k =>
    simp only [exec, execTlut] at h
    split at h <;> cases h
    exact .inl ⟨rfl, rfl, rfl, rfl, rfl, rfl, .inr (.inr (.inr rfl))⟩
  | next q =>
    simp only [exec, execNext] at h
    split at h <;> cases h <;>
      exact .inl ⟨rfl, rfl, rfl, rfl, rfl, rfl, .inr (.inr (.inr rfl))⟩
  | xmit cw => cases h; exact .inl ⟨rfl, rfl, rfl, rfl, rfl, rfl, .inr (.inr (.inl ⟨cw, rfl⟩))⟩
  | _ => cases h; exact .inl ⟨rfl, rfl, rfl, rfl, rfl, rfl, .inr (.inr (.inr rfl))⟩

end Sys2Proof.Machine
end

