-- ==== Sys2Proof/Laws/Encoding.lean ====
section
/-!
SUPPORT. The fields of a composed word, of a request word and of an assembled word: what putting a
field does and what reading it back gives (R54, R58, R62, R63, R69).
-/

namespace Sys2Proof

open Machine

/-! ### The command word (R54, R62) -/

/-- Clear-then-set writes bits 7:4 and no other (R62). -/
theorem putTempField_fields : ∀ (w : CmdWord) (c : BitVec 4),
    (putTempField w c).extractLsb' 4 4 = c ∧
    ∀ k, k < 4 ∨ 8 ≤ k → (putTempField w c).getLsbD k = w.getLsbD k := by
  intro w c
  have g : ∀ k, (putTempField w c).getLsbD k = 
      if 4 ≤ k ∧ k < 8 then c.getLsbD (k - 4) else w.getLsbD k := by
    intro k
    by_cases hk : k < 24
    · simp only [putTempField, tempField, tempMask, BitVec.getLsbD_or, BitVec.getLsbD_and,
          BitVec.getLsbD_not, BitVec.getLsbD_shiftLeft, BitVec.getLsbD_setWidth, hk]
      have : (0x0000F0#24).getLsbD k = decide (4 ≤ k ∧ k < 8) := by
        have : ∀ k : Fin 24, (0x0000F0#24).getLsbD k = decide (4 ≤ k.val ∧ k.val < 8) := by decide
        exact this ⟨k, hk⟩
      rw [this]
      by_cases h1 : k < 4
      · simp [h1, show ¬ (4 ≤ k) by omega]
      · by_cases h2 : k < 8
        · simp [h1, h2, show 4 ≤ k by omega, show k - 4 < 24 by omega]
        · simp [h1, h2, show 4 ≤ k by omega, show k - 4 < 24 by omega,
              BitVec.getLsbD_of_ge c (k-4) (by omega)]
    · rw [BitVec.getLsbD_of_ge _ k (by omega), BitVec.getLsbD_of_ge w k (by omega)]
      simp; omega
  refine ⟨?_, ?_⟩
  · ext k hk
    simp [g, hk]
    intro h; omega
  · intro k hk
    rw [g, if_neg (by omega)]

/-- The three patterns of R54 are the templates with the temperature field written. -/
theorem pattern_or_tempField : ∀ c : BitVec 4,
    0xB21F08#24 ||| tempField c = putTempField cwAuto c ∧
    0xB2BF00#24 ||| tempField c = putTempField (putModeField cwBase modeCool) c ∧
    0xB2BF0C#24 ||| tempField c = putTempField (putModeField cwBase modeHeat) c := by decide

/-- A word that matches a pattern of R54 is the pattern with its own bits 7:4. -/
theorem eq_of_pattern (w P : CmdWord) (h : w &&& cwPatternMask = P) :
    w = P ||| tempField (w.extractLsb' 4 4) := by
  subst h
  ext k hk
  have hm : cwPatternMask.getLsbD k = !decide (4 ≤ k ∧ k < 8) := by
    have : ∀ k : Fin 24, cwPatternMask.getLsbD k = !decide (4 ≤ k.val ∧ k.val < 8) := by decide
    exact this ⟨k, hk⟩
  simp only [← BitVec.getLsbD_eq_getElem, BitVec.getLsbD_or, BitVec.getLsbD_and, hm, tempField,
      BitVec.getLsbD_shiftLeft, BitVec.getLsbD_setWidth, BitVec.getLsbD_extractLsb', hk]
  by_cases h1 : k < 4
  · simp [h1, show ¬ 4 ≤ k by omega]
  · by_cases h2 : k < 8
    · simp [h1, h2, show 4 ≤ k by omega, show k - 4 < 24 by omega, show k - 4 < 4 by omega,
          show 4 + (k - 4) = k by omega]
    · simp [h1, h2, show ¬ k - 4 < 4 by omega]

/-! ### Codes and temperatures (R71) -/

theorem codeOfTemp_some {T : Int} {c : BitVec 4} (h : codeOfTemp T = some c) :
    17 ≤ T ∧ T ≤ 30 ∧ c = tempCode T := by
  unfold codeOfTemp at h
  split at h
  · rename_i ht
    simp [tempEncodable] at ht
    refine ⟨ht.1, ht.2, ?_⟩
    have := lutRead_clamped T
    rw [clampTemp_of_range ht, lutRead, if_pos (by omega), h] at this
    exact Option.some.inj this
  · cases h

theorem codeOfTemp_of_range {T : Int} (h : 17 ≤ T ∧ T ≤ 30) : codeOfTemp T = some (tempCode T) := by
  have := lutRead_clamped T
  rw [clampTemp_of_range h, lutRead, if_pos (by omega)] at this
  simp [codeOfTemp, tempEncodable, h, this]

theorem tempOfCode_tempCode {T : Int} (h : 17 ≤ T ∧ T ≤ 30) : tempOfCode (tempCode T) = some T := by
  have : T = 17 ∨ T = 18 ∨ T = 19 ∨ T = 20 ∨ T = 21 ∨ T = 22 ∨
      T = 23 ∨ T = 24 ∨ T = 25 ∨ T = 26 ∨ T = 27 ∨ T = 28 ∨ T = 29 ∨
      T = 30 := by omega
  rcases this with rfl | rfl | rfl | rfl | rfl | rfl | rfl | rfl | rfl | rfl |
    rfl | rfl | rfl | rfl <;> decide

theorem tempOfCode_some : ∀ (c : BitVec 4) (T : Int), tempOfCode c = some T →
    17 ≤ T ∧ T ≤ 30 ∧ tempCode T = c := by
  have : ∀ c, (match tempOfCode c with
      | some T => decide (17 ≤ T ∧ T ≤ 30 ∧ tempCode T = c)
      | none => true) = true := by decide
  intro c T h
  have := this c
  rw [h] at this
  simpa using this

/-! ### The request word (R58) -/

/-- Every bit of a packed request. -/
theorem packReq_getLsbD (op : BitVec 2) (e : Bool) (mode : BitVec 2) (g : Bool) (t : Temp) (k : Nat) :
    (packReq op e mode g t).getLsbD k =
      if k < 8 then t.getLsbD k else if k < 10 then false else if k = 10 then g
      else if k < 13 then mode.getLsbD (k - 11) else if k = 13 then e else op.getLsbD (k - 14) := by
    show BitVec.getLsbD (w := 2 + 1 + 2 + 1 + 2 + 8)
      (op ++ BitVec.ofBool e ++ mode ++ BitVec.ofBool g ++ 0#2 ++ t) k = _
    simp only [BitVec.getLsbD_append]
    by_cases h1 : k < 8
    · simp [h1]
    by_cases h2 : k < 10
    · simp [h1, h2, show k - 8 < 2 by omega]
    by_cases h3 : k = 10
    · subst h3; simp
    by_cases h4 : k < 13
    · have h5 : k = 11 ∨ k = 12 := by omega
      rcases h5 with rfl | rfl <;> simp
    by_cases h5 : k = 13
    · subst h5; simp
    · simp [h1, h2, h3, h4, h5, show ¬ k - 8 < 2 by omega,
        show ¬ k - 8 - 2 = 0 by omega, show ¬ k - 8 - 2 - 1 < 2 by omega,
        show ¬ k - 8 - 2 - 1 - 2 = 0 by omega, show k - 8 - 2 - 1 - 2 - 1 = k - 14 by omega]

/-- The fields of a packed request are the ones packed. -/
theorem packReq_fields (op : BitVec 2) (e : Bool) (mode : BitVec 2) (g : Bool) (t : Temp) :
    reqOp (packReq op e mode g t) = op ∧ reqE (packReq op e mode g t) = e ∧
    (packReq op e mode g t).extractLsb' 11 2 = mode ∧ reqG (packReq op e mode g t) = g ∧
    reqZ (packReq op e mode g t) = 0 ∧ reqTemp (packReq op e mode g t) = t := by
  have g := packReq_getLsbD op e mode g t
  have two : ∀ k, k < 2 → k = 0 ∨ k = 1 := by omega
  refine ⟨?_, ?_, ?_, ?_, ?_, ?_⟩
  · apply BitVec.eq_of_getLsbD_eq; intro k hk
    rw [reqOp, BitVec.getLsbD_extractLsb', g]
    rcases two k hk with rfl | rfl <;> simp
  · rw [reqE, g]; simp
  · apply BitVec.eq_of_getLsbD_eq; intro k hk
    rw [BitVec.getLsbD_extractLsb', g]
    rcases two k hk with rfl | rfl <;> simp
  · rw [reqG, g]; simp
  · apply BitVec.eq_of_getLsbD_eq; intro k hk
    rw [reqZ, BitVec.getLsbD_extractLsb', g]
    rcases two k hk with rfl | rfl <;> simp
  · apply BitVec.eq_of_getLsbD_eq; intro k hk
    rw [reqTemp, BitVec.getLsbD_extractLsb', g]
    simp [hk]

/-- A request word with bits 9:8 zero is its own fields packed. -/
theorem packReq_self (w : PortWord) (h : reqZ w = 0) :
    packReq (reqOp w) (reqE w) (w.extractLsb' 11 2) (reqG w) (reqTemp w) = w := by
  apply BitVec.eq_of_getLsbD_eq
  intro k hk
  have h8 : w.getLsbD 8 = false := by have := congrArg (·.getLsbD 0) h; simpa [reqZ] using this
  have h9 : w.getLsbD 9 = false := by have := congrArg (·.getLsbD 1) h; simpa [reqZ] using this
  rw [packReq_getLsbD]
  simp only [reqOp, reqE, reqG, reqTemp, BitVec.getLsbD_extractLsb']
  have : k < 8 ∨ k = 8 ∨ k = 9 ∨ k = 10 ∨ k = 11 ∨ k = 12 ∨ k = 13 ∨ k = 14 ∨ k = 15 := by omega
  rcases this with h | rfl | rfl | rfl | rfl | rfl | rfl | rfl | rfl
  · simp [h]
  · rw [h8]; simp
  · rw [h9]; simp
  all_goals simp

/-- What the decoder reads from a packed request (R59). -/
theorem decodeReq_packs (op : BitVec 2) (e : Bool) (mode : BitVec 2) (g : Bool) (t : Temp) :
    decodeReq (packReq op e mode g t) =
    if op = 0 then .ok (.init (present e (Mode.ofBits mode, t)))
    else if op = 1 then .ok (.apply (present e (Mode.ofBits mode)) (present g t))
    else if op = 2 then .ok .state else .ok .caps := by
  obtain ⟨h1, h2, h3, h4, h5, h6⟩ := packReq_fields op e mode g t
  simp [decodeReq, h1, h2, h3, h4, h5, h6, reqMode]

/-- The decoder of the command port gives host commands only (R59). -/
theorem decodeReq_kinds {w : PortWord} {i : Instr} (h : decodeReq w = .ok i) :
    (∃ p, i = .init p) ∨ (∃ m t, i = .apply m t) ∨ i = .state ∨ i = .caps := by
  unfold decodeReq at h
  split at h
  · cases h
  split at h
  · exact .inl ⟨_, (Except.ok.inj h).symm⟩
  split at h
  · exact .inr (.inl ⟨_, _, (Except.ok.inj h).symm⟩)
  split at h
  · exact .inr (.inr (.inl (Except.ok.inj h).symm))
  · exact .inr (.inr (.inr (Except.ok.inj h).symm))

/-- A request is rejected exactly when bits 9:8 are not zero (R67). -/
theorem decodeReq_err (w : PortWord) :
    (∃ r, decodeReq w = .error r) ↔ w.extractLsb' 8 2 ≠ 0#2 := by
  unfold decodeReq reqZ
  split
  · simp_all
  · split
    · simp_all
    split
    · simp_all
    split <;> simp_all

/-! ### MODE codes and assembled words (R14, R69) -/

@[simp] theorem Mode.ofBits_toBits (m : Mode) : Mode.ofBits m.toBits = m := by cases m <;> rfl

@[simp] theorem Mode.toBits_ofBits : ∀ b, (Mode.ofBits b).toBits = b := by decide

theorem append_toNat {a b : Nat} (x : BitVec a) (y : BitVec b) :
    (x ++ y).toNat = x.toNat * 2 ^ b + y.toNat := by
  rw [BitVec.toNat_append, ← Nat.shiftLeft_add_eq_or_of_lt y.isLt, Nat.shiftLeft_eq]

/-- The value of a packed request, as R69 writes it. -/
theorem packReq_toNat (op : BitVec 2) (e : Bool) (mode : BitVec 2) (g : Bool) (t : Temp) :
    (packReq op e mode g t).toNat =
      op.toNat * 16384 + e.toNat * 8192 + mode.toNat * 2048 + g.toNat * 1024 + t.toNat := by
  show BitVec.toNat (w := 2 + 1 + 2 + 1 + 2 + 8)
    (op ++ BitVec.ofBool e ++ mode ++ BitVec.ofBool g ++ 0#2 ++ t) = _
  simp only [append_toNat, BitVec.toNat_ofBool, BitVec.toNat_ofNat]
  omega

end Sys2Proof
end

