-- ==== Sys2Proof/Laws/PerInstr.lean ====
section
/-!
SUPPORT. The family EncodingRow: for every operation, its words match the `match` and `mask` of its
row of spec/opcode_table.json (R54, R59, R61), and an operation whose row has none has no word.
-/

namespace Sys2Proof.Laws.EncodingRow

open Sys2Proof Sys2Proof.Machine

/-- The pattern of a row: its match and its mask, or none. -/
inductive Row where
  | cw24 (value mask : CmdWord)
  | req16 (value mask : PortWord)
  | seq9 (value mask : SeqPos)
  | internal
  deriving DecidableEq, Repr

/-- The row of an operation. -/
def row : Instr → Row
  | .composeOff => .cw24 0xB27BE0#24 0xFFFFFF#24
  | .composeAuto _ => .cw24 0xB21F08#24 0xFFFF0F#24
  | .composeCool _ => .cw24 0xB2BF00#24 0xFFFF0F#24
  | .composeHeat _ => .cw24 0xB2BF0C#24 0xFFFF0F#24
  | .init _ => .req16 0x0000#16 0xC300#16
  | .apply _ _ => .req16 0x4000#16 0xC300#16
  | .state => .req16 0x8000#16 0xC300#16
  | .caps => .req16 0xC000#16 0xC300#16
  | .emitHdr _ => .seq9 0x000#9 0x0FF#9
  | .emitBit _ _ _ _ => .seq9 0x040#9 0x0C0#9
  | .emitFtr _ => .seq9 0x080#9 0x0FF#9
  | .sym0 => .internal
  | .sym1 => .internal
  | .symHdr => .internal
  | .symFtr => .internal
  | .clamp _ => .internal
  | .tlut _ => .internal
  | .tcode _ => .internal
  | .ser _ _ _ _ _ _ _ => .internal
  | .compose _ _ => .internal
  | .setTemp _ _ => .internal
  | .sendByte _ => .internal
  | .payload _ => .internal
  | .frame _ => .internal
  | .train _ => .internal
  | .xmit _ => .internal
  | .next _ => .internal

/-- A word of the row's format that agrees with the row's pattern. -/
def Row.fits : Row → Code → Prop
  | .cw24 value mask, .cw24 w => w &&& mask = value
  | .req16 value mask, .req16 w => w &&& mask = value
  | .seq9 value mask, .seq9 q => q &&& mask = value
  | _, _ => False

/-- Every word of the operation fits its row; a row without a pattern has no word; an encodable
operation has one. -/
def Statement (i : Instr) : Prop :=
  (∀ c, encode i = some c → (row i).fits c) ∧ (row i = .internal → encode i = none) ∧
    (i.encodable = true → (encode i).isSome = true)

/-- A composition with a temperature (R54). -/
theorem cwWithCode_fits (pattern : CmdWord) (T : Int) (c : Code)
    (hp : ∀ d : BitVec 4, (pattern ||| tempField d) &&& 0xFFFF0F#24 = pattern)
    (h : cwWithCode pattern T = some c) : (Row.cw24 pattern 0xFFFF0F#24).fits c := by
  simp only [cwWithCode, Option.map_eq_some_iff] at h
  obtain ⟨d, _, rfl⟩ := h
  exact hp d

theorem cwWithCode_isSome (pattern : CmdWord) (T : Int) (h : tempEncodable T = true) :
    (cwWithCode pattern T).isSome = true := by
  simp only [tempEncodable, decide_eq_true_eq] at h
  simp [cwWithCode, codeOfTemp_of_range h]

/-- The fixed bits of a packed request (R59). -/
theorem packReq_fixed (op : BitVec 2) (e : Bool) (mode : BitVec 2) (g : Bool) (t : Temp) :
    packReq op e mode g t &&& 0xC300#16 = packReq op false 0 false 0 := by
  apply BitVec.eq_of_getLsbD_eq
  intro k hk
  have hm : ∀ k : Fin 16, (0xC300#16).getLsbD k = decide (k.val = 8 ∨ k.val = 9 ∨ 14 ≤ k.val) := by
    decide
  have hk2 := hm ⟨k, hk⟩
  simp only at hk2
  rw [BitVec.getLsbD_and, hk2, packReq_getLsbD, packReq_getLsbD]
  by_cases h1 : k < 8
  · simp [h1]; omega
  by_cases h2 : k < 10
  · simp [h1, h2]
  by_cases h3 : k = 10
  · subst h3; simp
  by_cases h4 : k < 13
  · simp [h1, h2, h3, h4]; omega
  by_cases h5 : k = 13
  · subst h5; simp
  · simp [h1, h2, h3, h4, h5]; omega

theorem composeOff : Statement .composeOff :=
  ⟨fun c h => by cases h; rfl, nofun, fun _ => rfl⟩

theorem composeAuto (T : Int) : Statement (.composeAuto T) :=
  ⟨fun c h => cwWithCode_fits _ T c (by decide) h, nofun, cwWithCode_isSome _ T⟩

theorem composeCool (T : Int) : Statement (.composeCool T) :=
  ⟨fun c h => cwWithCode_fits _ T c (by decide) h, nofun, cwWithCode_isSome _ T⟩

theorem composeHeat (T : Int) : Statement (.composeHeat T) :=
  ⟨fun c h => cwWithCode_fits _ T c (by decide) h, nofun, cwWithCode_isSome _ T⟩

theorem init (prior : Option (Mode × Temp)) : Statement (.init prior) := by
  refine ⟨fun c h => ?_, nofun, fun _ => rfl⟩
  cases h
  cases prior with
  | none => exact packReq_fixed 0 false 0 false 0
  | some p => exact packReq_fixed 0 true p.1.toBits false p.2

theorem apply (mode : Option Mode) (temp : Option Temp) : Statement (.apply mode temp) := by
  refine ⟨fun c h => ?_, nofun, fun _ => rfl⟩
  cases h
  exact packReq_fixed 1 _ _ _ _

theorem state : Statement .state := ⟨fun c h => by cases h; rfl, nofun, fun _ => rfl⟩

theorem caps : Statement .caps := ⟨fun c h => by cases h; rfl, nofun, fun _ => rfl⟩

theorem emitHdr (f : Bool) : Statement (.emitHdr f) :=
  ⟨fun c h => by cases h; cases f <;> rfl, nofun, fun _ => rfl⟩

theorem emitBit (f : Bool) (j : BitVec 2) (v : Bool) (p : BitVec 3) : Statement (.emitBit f j v p) := by
  have hall : ∀ (f v : Bool) (j : BitVec 2) (p : BitVec 3), bitPos f j v p &&& 0x0C0#9 = 0x040#9 := by
    decide
  refine ⟨fun c h => ?_, nofun, fun h => ?_⟩
  · simp only [encode] at h
    split at h <;> cases h
    exact hall f v j p
  · simp only [Instr.encodable, decide_eq_true_eq] at h
    simp only [encode, if_pos h, Option.isSome_some]

theorem emitFtr (f : Bool) : Statement (.emitFtr f) :=
  ⟨fun c h => by cases h; cases f <;> rfl, nofun, fun _ => rfl⟩

theorem sym0 : Statement .sym0 := ⟨nofun, fun _ => rfl, nofun⟩

theorem sym1 : Statement .sym1 := ⟨nofun, fun _ => rfl, nofun⟩

theorem symHdr : Statement .symHdr := ⟨nofun, fun _ => rfl, nofun⟩

theorem symFtr : Statement .symFtr := ⟨nofun, fun _ => rfl, nofun⟩

theorem clamp (T : Int) : Statement (.clamp T) := ⟨nofun, fun _ => rfl, nofun⟩

theorem tlut (i : Int) : Statement (.tlut i) := ⟨nofun, fun _ => rfl, nofun⟩

theorem tcode (T : Int) : Statement (.tcode T) := ⟨nofun, fun _ => rfl, nofun⟩

theorem ser (oneMark oneSpace zeroMark zeroSpace value bitCount : Nat) (order : BitOrder) :
    Statement (.ser oneMark oneSpace zeroMark zeroSpace value bitCount order) := ⟨nofun, fun _ => rfl, nofun⟩

theorem compose (m : Mode) (T : Int) : Statement (.compose m T) := ⟨nofun, fun _ => rfl, nofun⟩

theorem setTemp (w : CmdWord) (T : Int) : Statement (.setTemp w T) := ⟨nofun, fun _ => rfl, nofun⟩

theorem sendByte (b : BitVec 8) : Statement (.sendByte b) := ⟨nofun, fun _ => rfl, nofun⟩

theorem payload (cw : CmdWord) : Statement (.payload cw) := ⟨nofun, fun _ => rfl, nofun⟩

theorem frame (cw : CmdWord) : Statement (.frame cw) := ⟨nofun, fun _ => rfl, nofun⟩

theorem train (cw : CmdWord) : Statement (.train cw) := ⟨nofun, fun _ => rfl, nofun⟩

theorem xmit (cw : CmdWord) : Statement (.xmit cw) := ⟨nofun, fun _ => rfl, nofun⟩

theorem next (q : SeqPos) : Statement (.next q) := ⟨nofun, fun _ => rfl, nofun⟩

end Sys2Proof.Laws.EncodingRow
end

