-- ==== Sys2Proof/Laws/Position.lean ====
section
/-!
SUPPORT. Facts about the 512 patterns of SEQ9 (R18, R61, R66, R101), each decided over all of them.
-/

namespace Sys2Proof.Machine

set_option maxRecDepth 8000 in
/-- NEXT has a value exactly on the 100 positions of R66. -/
theorem nextPos_isSome : ∀ q : SeqPos, (nextPos q).isSome = legalPos q := by decide

set_option maxRecDepth 8000 in
/-- NEXT keeps to the 100 positions and counts the beats (R66, R101). -/
theorem nextPos_goto : ∀ q : SeqPos, ∀ q', nextPos q = some (.goto q') →
    legalPos q' = true ∧ flatPos q' = flatPos q + 1 := by
  have h : ∀ q : SeqPos, (match nextPos q with
      | some (.goto q') => legalPos q' && flatPos q' == flatPos q + 1
      | _ => true) = true := by decide
  intro q q' hq
  have hq2 := h q
  rw [hq] at hq2
  simpa using hq2

set_option maxRecDepth 8000 in
/-- The train ends after the footer of the repeat, and nowhere else (R101). -/
theorem nextPos_end : ∀ q : SeqPos, nextPos q = some .endOfTrain ↔ q = ftrPos true := by decide

set_option maxRecDepth 8000 in
theorem flatPos_lt : ∀ q : SeqPos, legalPos q = true → flatPos q < 100 := by decide

set_option maxRecDepth 8000 in
theorem flatPos_zero : ∀ q : SeqPos, legalPos q = true → (flatPos q = 0 ↔ q = hdrPos false) := by
  decide

set_option maxRecDepth 8000 in
theorem flatPos_last : ∀ q : SeqPos, legalPos q = true → (flatPos q = 99 ↔ q = ftrPos true) := by
  decide

set_option maxRecDepth 8000 in
/-- The fields of a position give it back. -/
theorem packSeq_fields : ∀ q : SeqPos, packSeq (seqF q) (seqPh q) (seqJ q) (seqV q) (seqP q) = q := by
  decide

set_option maxRecDepth 8000 in
/-- What the fetch decodes from SEQ names SEQ again (R61). -/
theorem decodeSeq_ok : ∀ q : SeqPos, ∀ i, decodeSeq q = .ok i →
    (∃ f, i = .emitHdr f ∧ q = hdrPos f) ∨
    (∃ f j v p, i = .emitBit f j v p ∧ q = bitPos f j v p ∧ j ≠ 3) ∨
    (∃ f, i = .emitFtr f ∧ q = ftrPos f) := by
  have h : ∀ q : SeqPos, (match decodeSeq q with
      | .ok (.emitHdr f) => q == hdrPos f
      | .ok (.emitBit f j v p) => q == bitPos f j v p && j != 3
      | .ok (.emitFtr f) => q == ftrPos f
      | .ok _ => false
      | .error _ => true) = true := by decide
  intro q i hq
  have h2 := h q
  rw [hq] at h2
  cases i with
  | emitHdr f => exact .inl ⟨f, rfl, by simpa using h2⟩
  | emitBit f j v p => exact .inr (.inl ⟨f, j, v, p, rfl, by simpa using h2⟩)
  | emitFtr f => exact .inr (.inr ⟨f, rfl, by simpa using h2⟩)
  | _ => cases h2

set_option maxRecDepth 8000 in
theorem decodeSeq_legal : ∀ q : SeqPos, legalPos q = true → ∃ i, decodeSeq q = .ok i := by
  intro q h
  simp only [decodeSeq, h, Bool.true_eq_false, if_false]
  split
  · exact ⟨_, rfl⟩
  · split <;> exact ⟨_, rfl⟩

theorem decodeSeq_illegal (q : SeqPos) (h : legalPos q = false) :
    decodeSeq q = .error .unreachablePosition := by
  simp [decodeSeq, h]

end Sys2Proof.Machine
end

