-- ==== Sys2Proof/Laws/Step.lean ====
section
/-!
SUPPORT. What a fetch and a step can do, once; and how several steps and several instructions chain.
-/

namespace Sys2Proof.Machine

/-! ### Fetch -/

theorem fetch_reset {s : State} (h : s.rst = true) (hb : s.busy = false) :
    fetch s = .hold s.takeReset := by simp [fetch, h, hb]

theorem fetch_reset_busy {s : State} (h : s.rst = true) (hb : s.busy = true) :
    fetch s = .stop .resetWhileBusy := by simp [fetch, h, hb]

theorem fetch_busy {s : State} (h : s.rst = false) (hb : s.busy = true) :
    fetch s = runDecoded (decodeSeq s.seq) s := by simp [fetch, h, hb, decode]

theorem fetch_bench {s : State} {b : BenchItem} (h : s.rst = false) (hb : s.busy = false)
    (hs : s.bench = some b) : fetch s = runDecoded (decodeBench b) s.benchTaken := by
  simp [fetch, h, hb, hs]

theorem fetch_quiet {s : State} (h : s.rst = false) (hb : s.busy = false) (hs : s.bench = none)
    (hh : s.host = []) : fetch s = .hold s := by simp [fetch, h, hb, hs, hh]

theorem fetch_idle {s : State} {rest : List HostMove} (h : s.rst = false) (hb : s.busy = false)
    (hs : s.bench = none) (hh : s.host = .idle :: rest) : fetch s = .hold (s.setHost rest) := by
  simp [fetch, h, hb, hs, hh]

theorem fetch_offer {s : State} {w : PortWord} {rest : List HostMove} (h : s.rst = false)
    (hb : s.busy = false) (hs : s.bench = none) (hh : s.host = .offer w :: rest) :
    fetch s = runDecoded (decodeReq w) (s.setHost rest) := by
  simp [fetch, h, hb, hs, hh, decode]

/-! ### Step -/

theorem step_of_run {s u : State} {i : Instr} (h : fetch s = .run i u) : step s = exec i u := by
  simp [step, h]

theorem step_of_hold {s u : State} (h : fetch s = .hold u) : step s = .next u := by
  simp [step, h]

theorem step_of_stop {s : State} {r : Refusal} (h : fetch s = .stop r) : step s = .refused r := by
  simp [step, h]

/-- Everything a step can do when it answers a next state: a reset, one beat, an operation exercised
on its own, nothing, or a host command. -/
theorem step_next {s t : State} (h : step s = .next t) :
    (s.rst = true ∧ s.busy = false ∧ t = s.takeReset) ∨
    (s.rst = false ∧ s.busy = true ∧ ∃ i, decodeSeq s.seq = .ok i ∧ exec i s = .next t) ∨
    (s.rst = false ∧ s.busy = false ∧ ∃ b i, s.bench = some b ∧ decodeBench b = .ok i ∧
      exec i s.benchTaken = .next t) ∨
    (s.rst = false ∧ s.busy = false ∧ s.bench = none ∧ s.host = [] ∧ t = s) ∨
    (s.rst = false ∧ s.busy = false ∧ s.bench = none ∧ ∃ rest, s.host = .idle :: rest ∧
      t = s.setHost rest) ∨
    (s.rst = false ∧ s.busy = false ∧ s.bench = none ∧ ∃ w rest i, s.host = .offer w :: rest ∧
      decodeReq w = .ok i ∧ exec i (s.setHost rest) = .next t) := by
  cases hr : s.rst with
  | true =>
    cases hb : s.busy with
    | false =>
      rw [step_of_hold (fetch_reset hr hb)] at h
      exact .inl ⟨rfl, rfl, by simpa using h.symm⟩
    | true => rw [step_of_stop (fetch_reset_busy hr hb)] at h; cases h
  | false =>
    refine .inr ?_
    cases hb : s.busy with
    | true =>
      cases hd : decodeSeq s.seq with
      | error r =>
        rw [step_of_stop (r := refusalOf r) (by rw [fetch_busy hr hb, hd]; rfl)] at h; cases h
      | ok i =>
        rw [step_of_run (i := i) (u := s) (by rw [fetch_busy hr hb, hd]; rfl)] at h
        exact .inl ⟨rfl, rfl, i, rfl, h⟩
    | false =>
      refine .inr ?_
      cases hs : s.bench with
      | some b =>
        cases hd : decodeBench b with
        | error r =>
          rw [step_of_stop (r := refusalOf r) (by rw [fetch_bench hr hb hs, hd]; rfl)] at h; cases h
        | ok i =>
          rw [step_of_run (i := i) (u := s.benchTaken) (by rw [fetch_bench hr hb hs, hd]; rfl)] at h
          exact .inl ⟨rfl, rfl, b, i, rfl, hd, h⟩
      | none =>
        refine .inr ?_
        cases hh : s.host with
        | nil =>
          rw [step_of_hold (fetch_quiet hr hb hs hh)] at h
          exact .inl ⟨rfl, rfl, rfl, rfl, by simpa using h.symm⟩
        | cons mv rest =>
          refine .inr ?_
          cases mv with
          | idle =>
            rw [step_of_hold (fetch_idle hr hb hs hh)] at h
            exact .inl ⟨rfl, rfl, rfl, rest, rfl, by simpa using h.symm⟩
          | offer w =>
            cases hd : decodeReq w with
            | error r =>
              rw [step_of_stop (r := refusalOf r) (by rw [fetch_offer hr hb hs hh, hd]; rfl)] at h
              cases h
            | ok i =>
              rw [step_of_run (i := i) (u := s.setHost rest)
                (by rw [fetch_offer hr hb hs hh, hd]; rfl)] at h
              exact .inr ⟨rfl, rfl, rfl, w, rest, i, rfl, hd, h⟩

/-! ### Chains -/

theorem runSteps_succ {k : Nat} {s u : State} (h : step s = .next u) :
    runSteps (k + 1) s = runSteps k u := by simp [runSteps, h]

theorem runSteps_add {a b : Nat} {s u : State} (h : runSteps a s = .next u) :
    runSteps (a + b) s = runSteps b u := by
  induction a generalizing s with
  | zero => simp only [runSteps, Host.Outcome.next.injEq] at h; simp [h]
  | succ a ih =>
    cases hs : step s with
    | next v =>
      rw [runSteps_succ hs] at h
      rw [Nat.succ_add, runSteps_succ hs]
      exact ih h
    | fault r => cases r
    | refused r => simp [runSteps, hs] at h

theorem execAll_cons {i : Instr} {is : List Instr} {s t : State} (h : exec i s = .next t) :
    execAll (i :: is) s = execAll is t := by simp [execAll, h]

/-! ### The beats of a busy step -/

/-- The micro-step that SEQ selects offers the pair of SEQ (R61, R100). -/
theorem exec_of_decodeSeq {s : State} {i : Instr} (h : decodeSeq s.seq = .ok i) :
    ∃ p, pairAt s.cwl s.seq = some p ∧ exec i s = offerBeat s.seq p s := by
  rcases decodeSeq_ok _ _ h with ⟨f, rfl, hq⟩ | ⟨f, j, v, p, rfl, hq, hj⟩ | ⟨f, rfl, hq⟩
  · refine ⟨headerPair, ?_, by rw [hq]; rfl⟩
    rw [hq]; cases f <;> rfl
  · refine ⟨symbol (dataBit s.cwl j v p), ?_, by rw [hq]; rfl⟩
    have hf : ∀ (f v : Bool) (j : BitVec 2) (p : BitVec 3), j ≠ 3 →
        legalPos (bitPos f j v p) = true ∧ seqPh (bitPos f j v p) = phData ∧
        seqJ (bitPos f j v p) = j ∧ seqV (bitPos f j v p) = v ∧ seqP (bitPos f j v p) = p := by
      decide
    obtain ⟨h1, h2, h3, h4, h5⟩ := hf f v j p hj
    rw [hq]
    simp [pairAt, h1, h2, h3, h4, h5, phData, phHeader, phFooter]
  · refine ⟨footerPair, ?_, by rw [hq]; rfl⟩
    rw [hq]; cases f <;> rfl

/-- While BUSY is 1 and no reset is asserted, a step offers the pair of SEQ. -/
theorem step_busy {s : State} (hr : s.rst = false) (hb : s.busy = true)
    (hl : legalPos s.seq = true) :
    ∃ p, pairAt s.cwl s.seq = some p ∧ step s = offerBeat s.seq p s := by
  obtain ⟨i, hi⟩ := decodeSeq_legal _ hl
  obtain ⟨p, hp, he⟩ := exec_of_decodeSeq hi
  exact ⟨p, hp, by rw [step_of_run (i := i) (u := s) (by rw [fetch_busy hr hb, hi]; rfl), he]⟩

end Sys2Proof.Machine
end

