-- ==== Sys2Proof/Laws/Train.lean ====
section
/-!
SUPPORT. The pairs of a byte, of a frame and of a train as bits of the command word (R55, R63), and
the agreement of the two descriptions pair by pair (R102).
-/

namespace Sys2Proof.Machine

theorem bitOf_toNat (b : BitVec 8) (i : Nat) : bitOf b.toNat i = b.getLsbD i := by
  simp only [bitOf, BitVec.getLsbD, Nat.testBit, Nat.and_comm _ 1, Nat.one_and_eq_mod_two, bne, BEq.beq]
  rcases Nat.mod_two_eq_zero_or_one (b.toNat >>> i) with h | h <;> simp [h]

theorem sentBit_eq (b : BitVec 8) (p : Nat) : sentBit b p = b.getLsbD (7 - p) := by
  simp [sentBit]

/-- The eight symbols of a byte, most significant bit first (R37). -/
theorem serByte_eq (b : BitVec 8) : serByte b =
    [symbol (b.getLsbD 7), symbol (b.getLsbD 6), symbol (b.getLsbD 5), symbol (b.getLsbD 4),
     symbol (b.getLsbD 3), symbol (b.getLsbD 2), symbol (b.getLsbD 1), symbol (b.getLsbD 0)] := by
  simp [serByte, serPairs, serBits, bitsMsb, bitOf_toNat, symbol, onePair, zeroPair]

/-- The 16 symbols of a byte and its complement (R93). -/
theorem sendBytePairs_eq (b : BitVec 8) : sendBytePairs b =
    [symbol (b.getLsbD 7), symbol (b.getLsbD 6), symbol (b.getLsbD 5), symbol (b.getLsbD 4),
     symbol (b.getLsbD 3), symbol (b.getLsbD 2), symbol (b.getLsbD 1), symbol (b.getLsbD 0),
     symbol (!b.getLsbD 7), symbol (!b.getLsbD 6), symbol (!b.getLsbD 5), symbol (!b.getLsbD 4),
     symbol (!b.getLsbD 3), symbol (!b.getLsbD 2), symbol (!b.getLsbD 1), symbol (!b.getLsbD 0)] := by
  simp [sendBytePairs, serByte_eq]

/-- The fields of a data position. -/
theorem bitPos_fields : ∀ (f v : Bool) (j : BitVec 2) (p : BitVec 3), j ≠ 3 →
    legalPos (bitPos f j v p) = true ∧ seqPh (bitPos f j v p) = phData ∧
    seqJ (bitPos f j v p) = j ∧ seqV (bitPos f j v p) = v ∧ seqP (bitPos f j v p) = p := by
  decide

/-- The pair of a data position (R100). -/
theorem pairAt_bitPos (cw : CmdWord) (f v : Bool) (j : BitVec 2) (p : BitVec 3) (hj : j ≠ 3) :
    pairAt cw (bitPos f j v p) =
      some (symbol (Bool.xor ((wordByte cw j.toNat).getLsbD (7 - p.toNat)) v)) := by
  obtain ⟨h1, h2, h3, h4, h5⟩ := bitPos_fields f v j p hj
  simp [pairAt, h1, h2, h3, h4, h5, phData, phHeader, phFooter, dataBit, sentBit_eq]

/-- The pair that the small-step machine offers at a position is the pair of the train at its flat
number (R102). -/
theorem trainPairs_flatPos (cw : CmdWord) (q : SeqPos) (h : legalPos q = true) :
    (trainPairs cw)[flatPos q]? = pairAt cw q := by
  have hp8 : ∀ p : BitVec 3,
      p = 0 ∨ p = 1 ∨ p = 2 ∨ p = 3 ∨ p = 4 ∨ p = 5 ∨ p = 6 ∨ p = 7 := by decide
  have hj3 : ∀ j : BitVec 2, j ≠ 3 → j = 0 ∨ j = 1 ∨ j = 2 := by decide
  obtain ⟨i, hi⟩ := decodeSeq_legal q h
  simp only [trainPairs, framePairs, payloadPairs, sendBytePairs_eq]
  rcases decodeSeq_ok _ _ hi with ⟨f, rfl, rfl⟩ | ⟨f, j, v, p, rfl, rfl, hj⟩ | ⟨f, rfl, rfl⟩
  · cases f <;> rfl
  · rw [pairAt_bitPos cw f v j p hj]
    rcases hj3 j hj with rfl | rfl | rfl <;>
      rcases hp8 p with rfl | rfl | rfl | rfl | rfl | rfl | rfl | rfl <;>
        cases v <;> cases f <;> first
          | (simp only [Bool.xor_false]; rfl)
          | (simp only [Bool.xor_true]; rfl)
  · cases f <;> rfl

/-- From a legal position on, the micro-steps offer the rest of the train (R102). -/
theorem offeredPairs_eq_drop (cw : CmdWord) : ∀ (k : Nat) (q : SeqPos), legalPos q = true →
    100 ≤ k + flatPos q → offeredPairs cw k q = (trainPairs cw).drop (flatPos q) := by
  intro k
  induction k with
  | zero => intro q hl hk; have := flatPos_lt q hl; omega
  | succ k ih =>
    intro q hl hk
    have hlt : flatPos q < (trainPairs cw).length := by
      rw [trainPairs_length]; exact flatPos_lt q hl
    have hp : pairAt cw q = some (trainPairs cw)[flatPos q] := by
      rw [← trainPairs_flatPos cw q hl, List.getElem?_eq_getElem hlt]
    have hs := nextPos_isSome q
    rw [hl] at hs
    obtain ⟨succ, hn⟩ := Option.isSome_iff_exists.1 hs
    rw [List.drop_eq_getElem_cons hlt]
    cases succ with
    | goto q' =>
      obtain ⟨hl', hf⟩ := nextPos_goto q q' hn
      simp only [offeredPairs, hp, hn]
      rw [ih q' hl' (by omega), hf]
    | endOfTrain =>
      have h99 := (flatPos_last q hl).2 ((nextPos_end q).1 hn)
      simp only [offeredPairs, hp, hn]
      rw [List.drop_of_length_le (by rw [trainPairs_length, h99])]

/-- R102: the pairs that the 100 micro-steps offer are exactly `TRAIN(cw)`, for every 24-bit `cw`. -/
theorem microStepPairs_eq_trainPairs (cw : CmdWord) : microStepPairs cw = trainPairs cw :=
  offeredPairs_eq_drop cw 100 0#9 (by decide) (by decide)

/-- Beat `n` of the train's request is the beat that the port carries at the position numbered `n`:
same pair, same `first`, same `last`, same carrier (R57, R100). -/
theorem trainBeat_flatPos (cw : CmdWord) (q : SeqPos) (h : legalPos q = true) :
    (requestBeats carrierHz (trainPairs cw))[flatPos q]? = (pairAt cw q).map (portBeat q) := by
  rw [requestBeats_getElem?, trainPairs_flatPos cw q h, trainPairs_length]
  congr 1
  have h0 : (flatPos q == 0) = (q == hdrPos false) := by
    rw [Bool.eq_iff_iff]; simpa using flatPos_zero q h
  have h1 : (flatPos q + 1 == 100) = (q == ftrPos true) := by
    rw [Bool.eq_iff_iff]; simpa using flatPos_last q h
  funext p
  simp only [portBeat, h0, h1]

@[simp] theorem trainEvents_length (cw : CmdWord) : (trainEvents cw).length = 100 := by
  simp [trainEvents, requestBeats_length]

/-- The events of a train, cut at a position: those before it, then its beat. -/
theorem trainEvents_take_succ (cw : CmdWord) (q : SeqPos) (p : Pair) (h : legalPos q = true)
    (hp : pairAt cw q = some p) :
    (trainEvents cw).take (flatPos q + 1) =
      (trainEvents cw).take (flatPos q) ++ [.beat (portBeat q p)] := by
  rw [List.take_add_one]
  congr 1
  rw [trainEvents, List.getElem?_map, trainBeat_flatPos cw q h, hp]
  rfl

/-- The events of a train from a position on: its beat, then the rest. -/
theorem trainEvents_drop (cw : CmdWord) (q : SeqPos) (p : Pair) (h : legalPos q = true)
    (hp : pairAt cw q = some p) :
    (trainEvents cw).drop (flatPos q) =
      .beat (portBeat q p) :: (trainEvents cw).drop (flatPos q + 1) := by
  have hb : (trainEvents cw)[flatPos q]? = some (.beat (portBeat q p)) := by
    rw [trainEvents, List.getElem?_map, trainBeat_flatPos cw q h, hp]
    rfl
  obtain ⟨hlt, hget⟩ := List.getElem?_eq_some_iff.1 hb
  rw [List.drop_eq_getElem_cons hlt, hget]

/-! ### Observers (R45) -/

/-- Events without a publish event leave an observer's snapshot alone. -/
theorem lastPublished_append {s t : State} {es : List Event} (h : t.trace = s.trace ++ es)
    (hn : ∀ w, Event.publish w ∉ es) : t.lastPublished = s.lastPublished := by
  have fold : ∀ a, es.foldl observe a = a := by
    clear h
    induction es with
    | nil => intro a; rfl
    | cons e es ih =>
      intro a
      rw [List.foldl_cons, ih fun w hw => hn w (List.mem_cons_of_mem _ hw)]
      cases e with
      | publish w => exact absurd List.mem_cons_self (hn w)
      | beat b => rfl
      | respond w => rfl
  rw [State.lastPublished, h, List.foldl_append, fold]; rfl

end Sys2Proof.Machine
end

