-- ==== Sys2Proof/Tests/Slice0.lean ====
section
/-!
SUPPORT. The model's own tests: the checks of WellFormed refuse what they must, words written out
from the tables of 30_encoding.md decode to the operations they stand for, and small vectors of
95_test_vectors.md, each named, hold of one step. The expected values are the spec's.
-/

namespace Sys2Proof.Tests

open Sys2Proof Sys2Proof.Machine

/-! ### Helpers -/

/-- An idle block: COOL at 22 degrees, nothing emitted, the medium ready. -/
def idle : State where
  mode := .cool
  ttemp := 22#8
  curk := false
  busy := false
  seq := 0#9
  cwl := 0xB2BF70#24
  trace := []
  pulses := []
  result := none
  host := []
  medium := []
  mediumLevel := true
  rst := false
  bench := none
  draws := 5

/-- Another idle block, with another past. -/
def other : State :=
  { idle with mode := .off, ttemp := 99#8, cwl := 0#24, trace := [.publish 0x0063#16], draws := 9,
              medium := [true] }

/-- The same block, sending `0xB2BF70`, about to emit the beat of `q`. -/
def sending (q : SeqPos) : State := { idle with busy := true, seq := q }

/-- The same, with a medium that is not ready. -/
def stalled (q : SeqPos) : State := { sending q with mediumLevel := false }

/-- The same idle block, with a request offered. -/
def offered (w : PortWord) : State := { idle with host := [.offer w] }

/-- The same idle block, with an operation to be exercised on its own. -/
def benched (b : BenchItem) : State := { idle with bench := some b }

/-- The next state, if there is one. -/
def after : Result → Option State
  | .next s => some s
  | .fault _ => none
  | .refused _ => none

/-- The refusal, if there is one. -/
def refusal : Result → Option Refusal
  | .next _ => none
  | .fault _ => none
  | .refused r => some r

/-- What an operation returns to its caller. -/
def returned (i : Instr) : Option Value := (after (exec i idle)).bind State.result

/-- What an operation appends to the caller's sequence. -/
def appended (i : Instr) : Option (List Pair) := (after (exec i idle)).map State.pulses

/-- What a step lets out of the block. -/
def emitted (s : State) : Option (List Event) := (after (step s)).map State.trace

/-- The instruction that a word decodes to. -/
def reads (c : Code) : Option Instr :=
  match decode c with
  | .ok i => some i
  | .error _ => none

/-- Why a word decodes to none. -/
def rejected (c : Code) : Option Reject :=
  match decode c with
  | .ok _ => none
  | .error r => some r

/-- `n` data symbols written as one binary number, first sent most significant. -/
def sym (n w : Nat) : List Pair :=
  (List.range n).map fun k => if w.testBit (n - 1 - k) then ⟨560, 1680⟩ else ⟨560, 560⟩

/-- A beat that is neither first nor last. -/
def inner (mark space : BitVec 16) : Event := .beat ⟨false, false, mark, space, 38000#16⟩

/-! ### WellFormed refuses what it must (R66, R72; vectors NV1, NV3) -/

theorem test_wf_tlut_14 : (Instr.tlut 14).wellFormed = false := by decide
theorem test_wf_tlut_negative : (Instr.tlut (-1)).wellFormed = false := by decide
theorem test_wf_tlut_bounds : (Instr.tlut 0).wellFormed && (Instr.tlut 13).wellFormed = true := by
  decide
theorem test_wf_emitBit_byte_3 : (Instr.emitBit false 3 false 0).wellFormed = false := by decide
theorem test_wf_next_phase_3 : (Instr.next 0x0C0#9).wellFormed = false := by decide
theorem test_wf_next_byte_3 : (Instr.next 0x070#9).wellFormed = false := by decide
theorem test_wf_next_header_with_p : (Instr.next 0x001#9).wellFormed = false := by decide
theorem test_encodable_auto_31 : (Instr.composeAuto 31).encodable = false := by decide
theorem test_encodable_cool_31 : (Instr.composeCool 31).encodable = false := by decide
theorem test_encodable_heat_16 : (Instr.composeHeat 16).encodable = false := by decide
theorem test_encodable_emitBit_byte_3 : (Instr.emitBit true 3 true 7).encodable = false := by decide

/-! ### Decoding: words written out bit by bit (R54, R59, R61) -/

theorem test_decode_off :
    reads (.cw24 0b101100100111101111100000#24) = some .composeOff := by decide
theorem test_decode_auto :
    reads (.cw24 0b101100100001111111001000#24) = some (.composeAuto 25) := by decide
theorem test_decode_cool :
    reads (.cw24 0b101100101011111101110000#24) = some (.composeCool 22) := by decide
theorem test_decode_heat :
    reads (.cw24 0b101100101011111110111100#24) = some (.composeHeat 30) := by decide
/-- NV6: a DRY word. -/
theorem test_decode_dry : rejected (.cw24 0xB2BF74#24) = some .notACommandWord := by decide
/-- R65: the code `1111` stands for no temperature. -/
theorem test_decode_code_15 : rejected (.cw24 0xB2BFF0#24) = some .notACommandWord := by decide
/-- E2. -/
theorem test_decode_init :
    reads (.req16 0b0011100000011110#16) = some (.init (some (.heat, 30#8))) := by decide
/-- X4: `g` and `temp` are ignored. -/
theorem test_decode_init_default : reads (.req16 0x0416#16) = some (.init none) := by decide
/-- X5: `g` is ignored by INIT. -/
theorem test_decode_init_ignores_g :
    reads (.req16 0x3C1E#16) = some (.init (some (.heat, 30#8))) := by decide
/-- E15. -/
theorem test_decode_apply :
    reads (.req16 0b0111010000010110#16) = some (.apply (some .cool) (some 22#8)) := by decide
/-- E12. -/
theorem test_decode_apply_temp :
    reads (.req16 0b0100010011111111#16) = some (.apply none (some 255#8)) := by decide
/-- E9. -/
theorem test_decode_apply_mode :
    reads (.req16 0b0111100000000000#16) = some (.apply (some .heat) none) := by decide
/-- X3: neither field is present. -/
theorem test_decode_apply_nothing : reads (.req16 0x5816#16) = some (.apply none none) := by decide
/-- X1. -/
theorem test_decode_state : reads (.req16 0b1001110011111111#16) = some .state := by decide
/-- X2. -/
theorem test_decode_caps : reads (.req16 0b1110000010101010#16) = some .caps := by decide
/-- X6 to X9. -/
theorem test_decode_reserved : [0x4100#16, 0x7616#16, 0x0300#16, 0xFFFF#16].map
    (fun w => rejected (.req16 w)) = List.replicate 4 (some .reservedRequest) := by decide
/-- Q11. -/
theorem test_decode_emitHdr : reads (.seq9 0b100000000#9) = some (.emitHdr true) := by decide
/-- Q9. -/
theorem test_decode_emitBit :
    reads (.seq9 0b001101111#9) = some (.emitBit false 2 true 7) := by decide
/-- Q7. -/
theorem test_decode_emitBit_byte_1 :
    reads (.seq9 0b001010000#9) = some (.emitBit false 1 false 0) := by decide
/-- Q10. -/
theorem test_decode_emitFtr : reads (.seq9 0b010000000#9) = some (.emitFtr false) := by decide
/-- NV3. -/
theorem test_decode_unreachable : [0x0C0#9, 0x070#9, 0x001#9, 0x088#9].map
    (fun q => rejected (.seq9 q)) = List.replicate 4 (some .unreachablePosition) := by decide

/-- The table's numbering: 24 bits are a command word. -/
theorem test_table_cool : decodeTableWord 24 0xB2BF70 = some (.composeCool 22) := by decide
/-- 16 bits that the assembler writes are a request. -/
theorem test_table_apply : decodeTableWord 16 0x7416 = some (.apply (some .cool) (some 22#8)) := by
  decide
theorem test_table_init : decodeTableWord 16 0x0000 = some (.init none) := by decide
/-- 9 bits, in whole bytes, are a position. -/
theorem test_table_emitBit : decodeTableWord 16 0x0040 = some (.emitBit false 0 false 0) := by decide
theorem test_table_emitFtr : decodeTableWord 16 0x0080 = some (.emitFtr false) := by decide
theorem test_table_emitHdr : decodeTableWord 16 0x0100 = some (.emitHdr true) := by decide

/-! ### The assembler (R69; vectors E2, E15, E13) -/

theorem test_assemble_line :
    assembleLine (.apply (some .cool) (some 22)) = some 0x7416#16 := by decide
theorem test_assemble_out_of_range : assembleLine (.apply none (some 128)) = none := by decide
/-- `init COOL -5`. -/
theorem test_assemble_text :
    assemble ['i', 'n', 'i', 't', ' ', 'C', 'O', 'O', 'L', ' ', '-', '5', ' ', ';', 'x', '\n', '\n',
      's', 't', 'a', 't', 'e'] = some [0x30FB#16, 0x8000#16] := by decide
/-- `apply mode=HEAT temp=35`. -/
theorem test_assemble_apply :
    assemble ['a', 'p', 'p', 'l', 'y', ' ', 'm', 'o', 'd', 'e', '=', 'H', 'E', 'A', 'T', ' ',
      't', 'e', 'm', 'p', '=', '3', '5'] = some [0x7C23#16] := by decide
theorem test_assemble_unknown : assemble ['a', 'p'] = none := by decide

/-! ### Temperature (T1 to T34) -/

theorem test_clamp_low : returned (.clamp 16) = some (.int 17) := by decide
theorem test_clamp_high : returned (.clamp 31) = some (.int 30) := by decide
theorem test_tlut_10 : returned (.tlut 10) = some (.code 0b1001#4) := by decide
theorem test_tlut_outside :
    refusal (exec (.tlut 14) idle) = some .lutIndexOutOfRange := by decide
theorem test_tcode_22 : returned (.tcode 22) = some (.code 0b0111#4) := by decide
theorem test_tcode_low : returned (.tcode (-128)) = some (.code 0b0000#4) := by decide

/-! ### Serializer and symbols (V1 to V16, R91, R92) -/

/-- V16, least significant first. -/
theorem test_ser_lsb : appended (.ser 100 200 300 400 0b110 3 .lsb) =
    some [⟨300, 400⟩, ⟨100, 200⟩, ⟨100, 200⟩] := by decide
/-- V12. -/
theorem test_ser_high_bits :
    appended (.ser 560 1680 560 560 0x1B2 8 .msb) = some (sym 8 0b10110010) := by decide
theorem test_sym0 : appended .sym0 = some [⟨560, 560⟩] := by decide
theorem test_sym1 : appended .sym1 = some [⟨560, 1680⟩] := by decide
theorem test_symHdr : appended .symHdr = some [⟨4480, 4480⟩] := by decide
theorem test_symFtr : appended .symFtr = some [⟨560, 5040⟩] := by decide

/-! ### Composer (W1 to W17) -/

theorem test_compose_off : returned (.compose .off (-40)) = some (.word 0xB27BE0#24) := by decide
theorem test_compose_heat : returned (.compose .heat 35) = some (.word 0xB2BFBC#24) := by decide
theorem test_composeOff : returned .composeOff = some (.word 0xB27BE0#24) := by decide
theorem test_composeAuto_25 : returned (.composeAuto 25) = some (.word 0xB21FC8#24) := by decide
theorem test_composeAuto_low : returned (.composeAuto (-5)) = some (.word 0xB21F08#24) := by decide
theorem test_composeCool_22 : returned (.composeCool 22) = some (.word 0xB2BF70#24) := by decide
theorem test_composeCool_31 : returned (.composeCool 31) = some (.word 0xB2BFB0#24) := by decide
theorem test_composeHeat_27 : returned (.composeHeat 27) = some (.word 0xB2BF9C#24) := by decide
theorem test_composeHeat_28 : returned (.composeHeat 28) = some (.word 0xB2BF8C#24) := by decide
theorem test_setTemp : returned (.setTemp 0xB21FC8#24 22) = some (.word 0xB21F78#24) := by decide

/-! ### Sequencer, functional (B3, F2) -/

theorem test_sendByte :
    appended (.sendByte 0xB2#8) = some (sym 16 0b1011001001001101) := by decide
theorem test_payload : appended (.payload 0xB2BF70#24) =
    some (sym 48 0b101100100100110110111111010000000111000010001111) := by decide
theorem test_frame : appended (.frame 0xB2BF70#24) =
    some (⟨4480, 4480⟩ :: sym 48 0b101100100100110110111111010000000111000010001111 ++
      [⟨560, 5040⟩]) := by decide
set_option maxRecDepth 2000 in
/-- F9: the frame twice. -/
theorem test_train : (appended (.train 0x123456#24)).map (fun ps => (ps.take 50, ps.drop 50)) =
    (appended (.frame 0x123456#24)).map (fun ps => (ps, ps)) := by decide
set_option maxRecDepth 2000 in
/-- P6: the first and the last beat of a request, and how many there are. -/
theorem test_xmit : (after (exec (.xmit 0xB2BFBC#24) idle)).map
      (fun t => (t.trace.length, t.trace.head?, t.trace.getLast?)) =
    some (100, some (.beat ⟨true, false, 4480#16, 4480#16, 38000#16⟩),
      some (.beat ⟨false, true, 560#16, 5040#16, 38000#16⟩)) := by decide

/-! ### Sequencer, small-step (Q1 to Q14, NV3) -/

theorem test_next_goes_on : returned (.next 0x04F#9) = some (.position 0x050#9) := by decide
theorem test_next_ends : returned (.next 0x180#9) = some .endOfTrain := by decide
theorem test_next_unreachable :
    refusal (exec (.next 0x0C0#9) idle) = some .unreachablePosition := by decide
/-- Q1. -/
theorem test_emitHdr : (after (step (sending 0x000#9))).map (fun t => (t.trace, t.seq)) =
    some ([.beat ⟨true, false, 4480#16, 4480#16, 38000#16⟩], 0x040#9) := by decide
/-- Q11: the header of the repeat is not the first beat. -/
theorem test_emitHdr_repeat : emitted (sending 0x100#9) = some [inner 4480#16 4480#16] := by decide
/-- Q4: bit 0 of byte 0, then the complement. -/
theorem test_emitBit : (after (step (sending 0x047#9))).map (fun t => (t.trace, t.seq)) =
    some ([inner 560#16 560#16], 0x048#9) := by decide
/-- Q9: the last complemented bit, then the footer. -/
theorem test_emitBit_last : (after (step (sending 0x06F#9))).map (fun t => (t.trace, t.seq)) =
    some ([inner 560#16 1680#16], 0x080#9) := by decide
/-- Q10. -/
theorem test_emitFtr : (after (step (sending 0x080#9))).map (fun t => (t.trace, t.seq, t.busy)) =
    some ([inner 560#16 5040#16], 0x100#9, true) := by decide
/-- Q14 and Y1: the last beat, then the publish event. -/
theorem test_emitFtr_last : (after (step (sending 0x180#9))).map
      (fun t => (t.trace, t.seq, t.busy)) =
    some ([.beat ⟨false, true, 560#16, 5040#16, 38000#16⟩, .publish 0x1016#16], 0x000#9, false) := by
  decide

/-! ### Host commands (H1 to H20, Y1 to Y8, Z1 to Z4) -/

/-- H3 from another start state. -/
theorem test_init : (after (step (offered 0x20FD#16))).map
      (fun t => (t.mode, t.ttemp, t.curk, t.trace, t.host)) =
    some (.off, BitVec.ofInt 8 (-3), false, [], []) := by decide
/-- H20: AUTO, nothing emitted. -/
theorem test_init_default : (after (step (offered 0x0000#16))).map (fun t => (t.mode, t.trace)) =
    some (.auto, []) := by decide
/-- H15: temperature only. -/
theorem test_apply_temp : (after (step (offered 0x4417#16))).map
      (fun t => (t.ttemp, t.cwl, t.busy, t.seq, t.trace)) =
    some (23#8, 0xB2BF50#24, true, 0x000#9, []) := by decide
/-- H11: both fields; the raw temperature is stored, the clamped one is encoded. -/
theorem test_apply_both : (after (step (offered 0x7C23#16))).map
      (fun t => (t.mode, t.ttemp, t.cwl, t.busy)) =
    some (.heat, 35#8, 0xB2BFBC#24, true) := by decide
/-- P1 step 2. -/
theorem test_state : emitted (offered 0x8000#16) = some [.respond 0x1016#16] := by decide
/-- Y7 and Y5: the raw two's-complement pattern. -/
theorem test_stateWord :
    (stateWord .off false (BitVec.ofInt 8 (-128)), stateWord .auto false (BitVec.ofInt 8 (-1))) =
      (0x0080#16, 0x08FF#16) := by decide
/-- H5. -/
theorem test_caps : emitted (offered 0xC000#16) = some [.respond (capsWord capReg)] := by rfl
/-- Z1 to Z4. -/
theorem test_capsWord : [capsWord (capBits false false), capsWord (capBits false true),
    capsWord (capBits true false), capsWord (capBits true true)] =
    [0x0030#16, 0x0034#16, 0x0038#16, 0x003C#16] := by decide
set_option maxRecDepth 2000 in
/-- R102 on F9: the micro-steps offer the frame of `0x123456` twice. -/
theorem test_microStepPairs : microStepPairs 0x123456#24 =
    (List.replicate 2 (⟨4480, 4480⟩ :: sym 48 0b000100101110110100110100110010110101011010101001 ++
      [⟨560, 5040⟩])).flatten := by decide
/-- R57: the layout of a beat. -/
theorem test_beat_bits : (Beat.bits ⟨true, false, 4480#16, 560#16, 38000#16⟩).toNat =
    2 ^ 49 + 4480 * 2 ^ 32 + 560 * 2 ^ 16 + 38000 := by decide

/-! ### Placing a word for the next step -/

theorem test_place_request : (after (step (idle.withFetchWord 16 0x4417))).map State.cwl =
    some 0xB2BF50#24 := by decide
theorem test_place_position : emitted (idle.withFetchWord 16 0x0080) = some [inner 560#16 5040#16] := by
  decide
theorem test_place_word : ((after (step (idle.withFetchWord 24 0xB2BFBC))).bind State.result) =
    some (.word 0xB2BFBC#24) := by decide

/-! ### Witnesses: for each statement with hypotheses, a state and operands that meet all of them -/

theorem witness_ClampIsTwoSided :
    (16 : Int) < 17 ∧ (30 : Int) < 31 ∧ (17 : Int) ≤ 17 ∧ (17 : Int) ≤ 30 ∧ (30 : Int) ≤ 30 := by
  decide
theorem witness_TableReadGivesTheLiterals_inside :
    ((0 : Int) ≤ 0 ∧ (0 : Int) ≤ 13) ∧ ((0 : Int) ≤ 13 ∧ (13 : Int) ≤ 13) := by decide
theorem witness_TableReadGivesTheLiterals_outside :
    ¬((0 : Int) ≤ -1 ∧ (-1 : Int) ≤ 13) ∧ ¬((0 : Int) ≤ 14 ∧ (14 : Int) ≤ 13) := by decide
theorem witness_TableCodesAreDistinct :
    exec (.tlut 9) idle = .next { idle with result := some (.code 0b1101#4) } ∧
    exec (.tlut 10) idle = .next { idle with result := some (.code 0b1001#4) } ∧
    (9 : Int) ≠ 10 ∧ (10 : Int) = 9 + 1 := ⟨rfl, rfl, by decide, by decide⟩
theorem witness_TempCodeIsTheClampedRead : (17 : Int) ≤ 17 ∧ (30 : Int) ≤ 30 := by decide
theorem witness_SerEmitsOnePairPerBit : 0 < 1 ∧ 7 < 8 := by decide
/-- At the exact width and beyond it. -/
theorem witness_SerPadsWithZeroPairs : 5 < 2 ^ 3 ∧ 3 ≤ 3 ∧ 3 ≤ 8 := by decide
theorem witness_AutoWordKeepsItsTemplate : (25 : Int) = 25 := by decide
theorem witness_SetTempChangesOnlyItsField : (3 < 4 ∨ 8 ≤ 3) ∧ (8 < 4 ∨ 8 ≤ 8) := by decide
theorem witness_ComposedWordsAreDistinct :
    Mode.heat ≠ .off ∧ (17 : Int) ≤ 17 ∧ (17 : Int) ≤ 30 ∧ (30 : Int) ≤ 30 ∧
    exec (.compose .heat 17) idle = exec (.compose .heat 17) idle ∧
    exec (.compose .auto 30) idle = exec (.compose .auto 30) idle :=
  ⟨by decide, by decide, by decide, by decide, rfl, rfl⟩
theorem witness_DecodableWordsAreTheComposedOnes :
    decode (.cw24 0xB2BFBC#24) = .ok (.composeHeat 30) ∧
    exec (.compose .heat 30) idle = .next { idle with result := some (.word 0xB2BFBC#24) } :=
  ⟨rfl, rfl⟩
theorem witness_EncodedCompositionIsItsResult :
    encode (.composeAuto 17) = some (.cw24 0xB21F08#24) ∧
    encode .composeOff = some (.cw24 0xB27BE0#24) := by decide
theorem witness_SendByteThenComplement : 0 < 8 ∧ 7 < 8 := by decide
set_option maxRecDepth 2000 in
/-- The first and the last beat exist. -/
theorem witness_XmitIsOneTransmitRequest :
    ((requestBeats carrierHz (trainPairs 0xB2BF70#24))[0]?).isSome = true ∧
    ((requestBeats carrierHz (trainPairs 0xB2BF70#24))[99]?).isSome = true := by decide
/-- Each guarded line of NEXT, at the values next to its boundary. -/
theorem witness_NextFollowsItsSevenLines :
    (2#2 : BitVec 2) ≠ 3 ∧ (6#3 : BitVec 3) ≠ 7 ∧ (1#2 : BitVec 2) ≠ 2 ∧ (0#3 : BitVec 3) ≠ 7 := by
  decide
theorem witness_NextCountsTheBeats_goes_on :
    legalPos 0x16F#9 = true ∧ flatPos 0x16F#9 = 98 ∧ flatPos 0x16F#9 < 99 := by decide
theorem witness_NextCountsTheBeats_ends :
    legalPos 0x180#9 = true ∧ 99 ≤ flatPos 0x180#9 := by decide
theorem witness_NextCountsTheBeats_unreachable : legalPos 0x070#9 = false := by decide
theorem witness_HeaderBeatTaken :
    (sending 0x000#9).busy = true ∧ (sending 0x000#9).seq = packSeq false 0b00 0 false 0 ∧
    (sending 0x000#9).mediumReady = true ∧
    (sending 0x100#9).seq = packSeq true 0b00 0 false 0 := by decide
theorem witness_DataBeatTaken :
    (2#2 : BitVec 2) ≠ 3 ∧ (sending 0x06F#9).busy = true ∧
    (sending 0x06F#9).seq = packSeq false 0b01 2 true 7 ∧ (sending 0x06F#9).mediumReady = true := by
  decide
theorem witness_FirstFooterBeatTaken :
    (sending 0x080#9).busy = true ∧ (sending 0x080#9).seq = packSeq false 0b10 0 false 0 ∧
    (sending 0x080#9).mediumReady = true := by decide
theorem witness_LastBeatPublishesAndEnds :
    (sending 0x180#9).busy = true ∧ (sending 0x180#9).seq = packSeq true 0b10 0 false 0 ∧
    (sending 0x180#9).mediumReady = true := by decide
theorem witness_OfferedBeatIsHeld :
    (stalled 0x080#9).rst = false ∧ (stalled 0x080#9).busy = true ∧
    legalPos (stalled 0x080#9).seq = true ∧ (stalled 0x080#9).mediumReady = false := by decide
theorem witness_TakenBeatIsTheOfferedOne :
    (sending 0x048#9).rst = false ∧ (sending 0x048#9).busy = true ∧
    legalPos (sending 0x048#9).seq = true ∧ (sending 0x048#9).mediumReady = true := by decide
/-- Not busy; busy at another position; a position with `j` = 3; and a step there. -/
theorem witness_BeatsWithoutMeaningAreRefused :
    idle.busy = false ∧ (sending 0x041#9).seq ≠ packSeq false 0b00 0 false 0 ∧
    (sending 0x041#9).seq ≠ packSeq false 0b01 0 false 0 ∧
    (sending 0x041#9).seq ≠ packSeq false 0b10 0 false 0 ∧
    (sending 0x070#9).busy = true ∧ (sending 0x070#9).seq = packSeq false 0b01 3 false 0 ∧
    (sending 0x070#9).rst = false ∧ legalPos (sending 0x070#9).seq = false := by decide
theorem witness_MicroStepsMakeTheTrain :
    (sending 0#9).rst = false ∧ (sending 0#9).busy = true ∧ (sending 0#9).seq = 0#9 ∧
    (∀ a, a ∈ (sending 0#9).medium → a = true) ∧ (sending 0#9).mediumLevel = true := by decide
/-- The state meets the invariant of the registers: CWL is the word of COOL at 22 degrees. -/
theorem witness_EveryApplyEnds :
    State.Inv { sending 0x04F#9 with medium := [false, true, false] } ∧
    (sending 0x04F#9).rst = false ∧ (sending 0x04F#9).busy = true ∧
    (sending 0x04F#9).mediumLevel = true :=
  ⟨⟨rfl, by decide, nofun, fun _ => by decide⟩, rfl, rfl, rfl⟩
theorem witness_MediumNeverReadyHangs :
    (stalled 0x080#9).rst = false ∧ (stalled 0x080#9).busy = true ∧
    legalPos (stalled 0x080#9).seq = true ∧ (∀ a, a ∈ (stalled 0x080#9).medium → a = false) ∧
    (stalled 0x080#9).mediumLevel = false := by decide
theorem witness_InitLoadsStateOrDefault : idle.busy = false := by decide
theorem witness_ApplyUpdatesThenComposes : idle.busy = false := by decide
theorem witness_StateRespondsTheState : idle.busy = false := by decide
theorem witness_CapsRespondsTheCapabilities : idle.busy = false := by decide
theorem witness_RequestIsHeldWhileBusy :
    (sending 0x040#9).busy = true ∧
    encode (.apply (some .heat) (some 35#8)) = some (.req16 0x7C23#16) ∧
    encode (.init none) = some (.req16 0x0000#16) ∧ encode .state = some (.req16 0x8000#16) ∧
    encode .caps = some (.req16 0xC000#16) := by decide
theorem witness_NothingIntrudesOnAnApply :
    (sending 0x040#9).busy = true ∧ (∃ t, step (sending 0x040#9) = .next t ∧ t.busy = true) ∧
    ∃ t, step (sending 0x180#9) = .next t ∧ t.busy = false := ⟨rfl, ⟨_, rfl, rfl⟩, _, rfl, rfl⟩
/-- Two states that differ in MODE, TTEMP, CWL and history, and a request that carries both fields. -/
theorem witness_EqualStateEqualRequestEqualTrain :
    idle.busy = false ∧ idle.rst = false ∧ (∀ a, a ∈ idle.medium → a = true) ∧
    idle.mediumLevel = true ∧ other.busy = false ∧ other.rst = false ∧
    (∀ a, a ∈ other.medium → a = true) ∧ other.medium ≠ [] ∧ other.mediumLevel = true ∧
    (some Mode.heat).getD idle.mode = (some Mode.heat).getD other.mode ∧
    (some 30#8).getD idle.ttemp = (some 30#8).getD other.ttemp ∧ idle.mode ≠ other.mode := by decide
theorem witness_StepRunsTheDecodedInstruction_beat :
    (sending 0x180#9).rst = false ∧ (sending 0x180#9).busy = true ∧
    decode (.seq9 (sending 0x180#9).seq) = .ok (.emitFtr true) := ⟨rfl, rfl, rfl⟩
theorem witness_StepRunsTheDecodedInstruction_request :
    (offered 0x7416#16).rst = false ∧ (offered 0x7416#16).busy = false ∧
    (offered 0x7416#16).bench = none ∧ (offered 0x7416#16).host = .offer 0x7416#16 :: [] ∧
    decode (.req16 0x7416#16) = .ok (.apply (some .cool) (some 22#8)) :=
  ⟨rfl, rfl, rfl, rfl, rfl⟩
theorem witness_StepRunsTheDecodedInstruction_bench :
    (benched (.word 0xB27BE0#24)).rst = false ∧ (benched (.word 0xB27BE0#24)).busy = false ∧
    (benched (.word 0xB27BE0#24)).bench = some (.word 0xB27BE0#24) ∧
    decode (.cw24 0xB27BE0#24) = .ok .composeOff ∧
    (benched (.op (.clamp 16))).rst = false ∧ (benched (.op (.clamp 16))).busy = false ∧
    (benched (.op (.clamp 16))).bench = some (.op (.clamp 16)) :=
  ⟨rfl, rfl, rfl, rfl, rfl, rfl, rfl⟩
theorem witness_IdleStepRetainsEverything :
    idle.rst = false ∧ idle.busy = false ∧ idle.bench = none ∧ idle.host = [] ∧
    ({ idle with host := [.idle] } : State).host = .idle :: [] := by decide
theorem witness_ReservedRequestsAreRefused :
    (0x7616#16).extractLsb' 8 2 ≠ 0#2 ∧ (offered 0x7616#16).rst = false ∧
    (offered 0x7616#16).busy = false ∧ (offered 0x7616#16).bench = none ∧
    (offered 0x7616#16).host = .offer 0x7616#16 :: [] := by decide
theorem witness_ResetTakesEffectWhenIdle :
    ({ idle with rst := true } : State).rst = true ∧ ({ idle with rst := true } : State).busy = false ∧
    ({ sending 0x040#9 with rst := true } : State).rst = true ∧
    ({ sending 0x040#9 with rst := true } : State).busy = true := by decide
theorem witness_StepKeepsTheRegisterInvariant :
    State.Inv (offered 0x7416#16) ∧ ∃ t, step (offered 0x7416#16) = .next t :=
  ⟨⟨rfl, by decide, fun _ => rfl, fun h => by cases h⟩, _, rfl⟩
/-- A state in the middle of an APPLY: one beat has been taken. -/
theorem witness_StepKeepsTheTraceOfWholeCommands :
    State.Inv { sending 0x040#9 with trace := [.beat ⟨true, false, 4480#16, 4480#16, 38000#16⟩] } ∧
    State.TraceInv
      { sending 0x040#9 with trace := [.beat ⟨true, false, 4480#16, 4480#16, 38000#16⟩] } ∧
    ∃ t, step { sending 0x040#9 with
      trace := [.beat ⟨true, false, 4480#16, 4480#16, 38000#16⟩] } = .next t :=
  ⟨⟨rfl, by decide, nofun, fun _ => by decide⟩, ⟨rfl, [], .nil, by decide⟩, _, rfl⟩
theorem witness_StepAlwaysAnswersNext :
    State.Inv (offered 0x7416#16) ∧ (offered 0x7416#16).bench = none ∧
    ((offered 0x7416#16).rst = true → (offered 0x7416#16).busy = false) ∧
    (∀ w rest, (offered 0x7416#16).host = .offer w :: rest → w.extractLsb' 8 2 = 0#2) :=
  ⟨⟨rfl, by decide, fun _ => rfl, fun h => by cases h⟩, rfl, fun _ => rfl,
    fun w rest h => by cases h; decide⟩
/-- An APPLY that changes TTEMP and raises BUSY, and an INIT that changes MODE. -/
theorem witness_OnlyHostCommandsWriteTheClimate :
    (∃ t, step (offered 0x4417#16) = .next t ∧ t.ttemp ≠ (offered 0x4417#16).ttemp ∧
      (offered 0x4417#16).busy = false ∧ t.busy = true) ∧
    (∃ t, step (offered 0x20FD#16) = .next t ∧ t.mode ≠ (offered 0x20FD#16).mode) ∧
    (offered 0x4417#16).rst = false ∧ (offered 0x4417#16).bench = none :=
  ⟨⟨_, rfl, by decide, rfl, rfl⟩, ⟨_, rfl, by decide⟩, rfl, rfl⟩
/-- From an idle state, and in the middle of a train. -/
theorem witness_ObserverLagsUntilPublish :
    (∃ t, step (offered 0x7416#16) = .next t ∧ (offered 0x7416#16).busy = false) ∧
    ∃ t, step (sending 0x080#9) = .next t ∧ t.busy = true := ⟨⟨_, rfl, rfl⟩, _, rfl, rfl⟩
/-- Every encodable constructor, at boundary operands. -/
theorem witness_DecodeOfEncodeIsTheInstruction :
    [Instr.composeOff, .composeAuto 17, .composeAuto 30, .composeCool 17, .composeCool 30,
      .composeHeat 17, .composeHeat 30, .init none, .init (some (.heat, 255#8)), .apply none none,
      .apply (some .heat) (some 128#8), .state, .caps, .emitHdr true, .emitBit true 2 true 7,
      .emitFtr true].all Instr.encodable = true := by decide
theorem witness_EncodeOfDecodeIsTheWord :
    decode (.seq9 0x16F#9) = .ok (.emitBit true 2 true 7) ∧
    decode (.cw24 0xB2BFB0#24) = .ok (.composeCool 30) ∧ decode (.req16 0x9CFF#16) = .ok .state :=
  ⟨rfl, rfl, rfl⟩
/-- One word for each line of the mask table. -/
theorem witness_IgnoredRequestBits :
    decode (.req16 0x0416#16) = .ok (.init none) ∧
    decode (.req16 0x3C1E#16) = .ok (.init (some (.heat, 30#8))) ∧
    decode (.req16 0x5816#16) = .ok (.apply none none) ∧
    decode (.req16 0x78FF#16) = .ok (.apply (some .heat) none) ∧
    decode (.req16 0x5C16#16) = .ok (.apply none (some 22#8)) ∧
    decode (.req16 0x7416#16) = .ok (.apply (some .cool) (some 22#8)) ∧
    decode (.req16 0x9CFF#16) = .ok .state ∧ decode (.req16 0xE0AA#16) = .ok .caps :=
  ⟨rfl, rfl, rfl, rfl, rfl, rfl, rfl, rfl⟩
/-- A line with a word at each end of the range, and lines just outside it. -/
theorem witness_AssemblerAgreesWithEncoder :
    assembleLine (.apply none (some (-128))) = some 0x4480#16 ∧
    assembleLine (.init (some (.off, 127))) = some 0x207F#16 ∧
    assembleLine (.apply (some .off) (some 128)) = none ∧
    assembleLine (.init (some (.cool, -129))) = none := by decide

end Sys2Proof.Tests
end

