-- ==== Sys2Proof/Proofs/StateFamily.lean ====
section
/-!
SUPPORT. The registers over one step (10_state.md): the reset state, the invariant of the registers,
and who writes MODE and TTEMP. The step is taken apart by `step_next`, a beat by `offerBeat_next`, an
operation of an idle block by `exec_when_idle`.
-/

namespace Sys2Proof.Machine

/-! ### INIT on the registers (R104) -/

@[simp] theorem State.loadPrior_curk (s : State) (prior : Option (Mode × Temp)) :
    (s.loadPrior prior).curk = false := by cases prior <;> rfl

@[simp] theorem State.loadPrior_busy (s : State) (prior : Option (Mode × Temp)) :
    (s.loadPrior prior).busy = s.busy := by cases prior <;> rfl

@[simp] theorem State.loadPrior_seq (s : State) (prior : Option (Mode × Temp)) :
    (s.loadPrior prior).seq = s.seq := by cases prior <;> rfl

/-! ### The invariant of the registers, one update at a time -/

/-- While BUSY is 0 the invariant says no more than CURK 0 and SEQ 0: CWL is then free (R19). -/
theorem State.Inv.of_idle {s : State} (hc : s.curk = false) (hb : s.busy = false)
    (hq : s.seq = 0#9) : s.Inv where
  curkUnknown := hc
  seqLegal := by rw [hq]; decide
  idleSeq _ := hq
  wordLatched h := by rw [hb] at h; cases h

theorem State.Inv.setHost {s : State} (hi : s.Inv) (moves : List HostMove) :
    (s.setHost moves).Inv :=
  ⟨hi.curkUnknown, hi.seqLegal, hi.idleSeq, hi.wordLatched⟩

theorem State.Inv.benchTaken {s : State} (hi : s.Inv) : s.benchTaken.Inv :=
  ⟨hi.curkUnknown, hi.seqLegal, hi.idleSeq, hi.wordLatched⟩

theorem State.Inv.mediumAnswered {s : State} (hi : s.Inv) : s.mediumAnswered.Inv :=
  ⟨hi.curkUnknown, hi.seqLegal, hi.idleSeq, hi.wordLatched⟩

theorem State.Inv.beatOut {s : State} (hi : s.Inv) (q : SeqPos) (p : Pair) : (s.beatOut q p).Inv :=
  ⟨hi.curkUnknown, hi.seqLegal, hi.idleSeq, hi.wordLatched⟩

/-- In a train SEQ may move to any of the 100 positions. -/
theorem State.Inv.setSeq {s : State} (hi : s.Inv) (hb : s.busy = true) {q : SeqPos}
    (hq : legalPos q = true) : (s.setSeq q).Inv where
  curkUnknown := hi.curkUnknown
  seqLegal := hq
  idleSeq h := by rw [State.setSeq_busy, hb] at h; cases h
  wordLatched := hi.wordLatched

theorem State.Inv.finishTrain {s : State} (hi : s.Inv) : s.finishTrain.Inv :=
  .of_idle hi.curkUnknown (finishTrain_busy s) (finishTrain_seq s)

/-- The reset establishes the invariant, whatever the registers held (R131). -/
theorem State.takeReset_inv (s : State) : s.takeReset.Inv :=
  .of_idle (takeReset_curk s) (takeReset_busy s) (takeReset_seq s)

/-- An APPLY establishes the invariant, whatever the registers held: it latches the word of the MODE
and TTEMP that it leaves (R47, R106 steps 1 to 3). -/
theorem State.startApply_inv (s : State) (m : Option Mode) (τ : Option Temp) :
    (s.startApply m τ).Inv where
  curkUnknown := startApply_curk s m τ
  seqLegal := by rw [startApply_seq]; decide
  idleSeq h := by rw [startApply_busy] at h; cases h
  wordLatched _ := by rw [startApply_cwl, startApply_mode, startApply_ttemp]

theorem State.Inv.loadPrior {s : State} (hi : s.Inv) (hb : s.busy = false)
    (prior : Option (Mode × Temp)) : (s.loadPrior prior).Inv :=
  .of_idle (loadPrior_curk s prior) (by rw [loadPrior_busy, hb])
    (by rw [loadPrior_seq, hi.idleSeq hb])

/-! ### The invariant over a beat and over an operation -/

/-- A beat keeps the invariant: waiting moves no register, a beat taken moves SEQ to its NEXT, which
is one of the 100 positions, and the last beat leaves the block idle (R99 to R101). -/
theorem offerBeat_keeps_inv {q : SeqPos} {p : Pair} {s t : State} (hi : s.Inv)
    (h : offerBeat q p s = .next t) : t.Inv := by
  obtain ⟨hb, -, ⟨-, rfl⟩ | ⟨q', -, hn, rfl⟩ | ⟨-, -, rfl⟩⟩ := offerBeat_next h
  · exact hi.mediumAnswered
  · exact (hi.mediumAnswered.beatOut q p).setSeq hb (nextPos_goto q q' hn).1
  · exact (hi.mediumAnswered.beatOut q p).finishTrain

/-- Every operation that completes while BUSY is 0 keeps the invariant. -/
theorem exec_when_idle_keeps_inv {i : Instr} {s t : State} (hi : s.Inv) (hb : s.busy = false)
    (h : exec i s = .next t) : t.Inv := by
  obtain ⟨-, -, hcurk, hbusy, hseq, -⟩ | ⟨prior, -, rfl⟩ | ⟨m, τ, -, rfl⟩ := exec_when_idle hb h
  · exact .of_idle (hcurk.trans hi.curkUnknown) (hbusy.trans hb) (hseq.trans (hi.idleSeq hb))
  · exact hi.loadPrior hb prior
  · exact s.startApply_inv m τ

/-- R16, R18, R19, R47, R66: the invariant over one step, by what the step did. -/
theorem step_keeps_inv {s t : State} (hi : s.Inv) (h : step s = .next t) : t.Inv := by
  rcases step_next h with ⟨-, -, rfl⟩ | ⟨-, -, i, hd, he⟩ | ⟨-, hb, b, i, -, -, he⟩ |
    ⟨-, -, -, -, rfl⟩ | ⟨-, -, -, rest, -, rfl⟩ | ⟨-, hb, -, w, rest, i, -, -, he⟩
  · exact s.takeReset_inv
  · obtain ⟨p, -, hp⟩ := exec_of_decodeSeq hd
    exact offerBeat_keeps_inv hi (hp ▸ he)
  · exact exec_when_idle_keeps_inv hi.benchTaken hb he
  · exact hi
  · exact hi.setHost rest
  · exact exec_when_idle_keeps_inv (hi.setHost rest) hb he

/-! ### Who writes MODE and TTEMP -/

/-- No beat, not even the last, writes MODE or TTEMP (R24). -/
theorem offerBeat_keeps_climate {q : SeqPos} {p : Pair} {s t : State}
    (h : offerBeat q p s = .next t) : t.mode = s.mode ∧ t.ttemp = s.ttemp := by
  obtain ⟨-, -, ⟨-, rfl⟩ | ⟨q', -, -, rfl⟩ | ⟨-, -, rfl⟩⟩ := offerBeat_next h <;> exact ⟨rfl, rfl⟩

/-- R24, R112: an operation run while BUSY is 0 that changes MODE or TTEMP or raises BUSY is an APPLY,
or an INIT, which leaves BUSY at 0. -/
theorem climate_writer_when_idle {i : Instr} {s t : State} (hb : s.busy = false)
    (h : exec i s = .next t) (hw : t.mode ≠ s.mode ∨ t.ttemp ≠ s.ttemp ∨ t.busy = true) :
    (∃ m τ, i = .apply m τ) ∨ (t.busy = false ∧ ∃ prior, i = .init prior) := by
  obtain ⟨hmode, httemp, -, hbusy, -⟩ | ⟨prior, rfl, rfl⟩ | ⟨m, τ, rfl, -⟩ := exec_when_idle hb h
  · simp [hmode, httemp, hbusy, hb] at hw
  · exact .inr ⟨by rw [State.loadPrior_busy, hb], prior, rfl⟩
  · exact .inl ⟨m, τ, rfl⟩

end Sys2Proof.Machine

namespace Sys2Proof.Proofs

open Sys2Proof.Machine

/-- Settles O47: `State.reset` gives each field that the statement names as a literal. -/
theorem resetState : Obligations.ResetState := ⟨rfl, rfl, rfl, rfl, rfl, rfl⟩

/-- Settles O49: the reset state is idle, and its trace is that of no command at all. -/
theorem resetMeetsTheInvariants : Obligations.ResetMeetsTheInvariants :=
  ⟨.of_idle rfl rfl rfl, rfl, [], .nil, rfl⟩

/-- Settles O50, by what a step can do. -/
theorem stepKeepsTheRegisterInvariant : Obligations.StepKeepsTheRegisterInvariant :=
  fun _ _ hi h => step_keeps_inv hi h

/-- Settles O53: a beat writes neither MODE nor TTEMP, with nothing offered no register moves, and
what an offered command may write is `climate_writer_when_idle`. -/
theorem onlyHostCommandsWriteTheClimate : Obligations.OnlyHostCommandsWriteTheClimate := by
  intro s t hrst hbench h hw
  rcases step_next h with ⟨hr, -⟩ | ⟨-, hb, i, hd, he⟩ | ⟨-, -, b, i, hs, -⟩ |
    ⟨-, hb, -, -, rfl⟩ | ⟨-, hb, -, rest, -, rfl⟩ | ⟨-, hb, -, w, rest, i, hh, hd, he⟩
  · rw [hrst] at hr; cases hr
  · obtain ⟨p, -, hp⟩ := exec_of_decodeSeq hd
    obtain ⟨hmode, httemp⟩ := offerBeat_keeps_climate (hp ▸ he)
    simp [hmode, httemp, hb] at hw
  · rw [hbench] at hs; cases hs
  · simp [hb] at hw
  · simp [hb] at hw
  · exact ⟨hb, w, rest, i, hh, hd,
      climate_writer_when_idle (s := s.setHost rest) hb he (hw.imp_right (.imp_right And.right))⟩

end Sys2Proof.Proofs
end

