-- ==== Sys2Proof/Proofs/MemoryFamily.lean ====
section
/-!
SUPPORT. The observers' snapshot over one step (20_memory.md): the only publish event is that of
`finishTrain`, which drops BUSY, so a step that starts idle or ends busy leaves the snapshot alone.
-/

namespace Sys2Proof.Machine

/-! ### What leaves the snapshot alone (R45) -/

/-- A state that lets nothing further leave the block holds the same snapshot. -/
theorem lastPublished_of_trace {s t : State} (h : t.trace = s.trace) :
    t.lastPublished = s.lastPublished := by
  rw [State.lastPublished, State.lastPublished, h]

@[simp] theorem State.respond_lastPublished (s : State) (w : PortWord) :
    (s.respond w).lastPublished = s.lastPublished :=
  lastPublished_append (es := [.respond w]) rfl (by simp)

@[simp] theorem State.beatOut_lastPublished (s : State) (q : SeqPos) (p : Pair) :
    (s.beatOut q p).lastPublished = s.lastPublished :=
  lastPublished_append (es := [.beat (portBeat q p)]) rfl (by simp)

/-- A transmit request handed over as a whole is beats only: XMIT publishes nothing (R98). -/
@[simp] theorem State.submit_lastPublished (s : State) (hz : Nat) (ps : List Pair) :
    (s.submit hz ps).lastPublished = s.lastPublished :=
  lastPublished_append (es := (requestBeats hz ps).map .beat) rfl (by simp)

@[simp] theorem State.loadPrior_trace (s : State) (prior : Option (Mode × Temp)) :
    (s.loadPrior prior).trace = s.trace := by cases prior <;> rfl

/-! ### The snapshot over a beat and over an operation -/

/-- A beat after which BUSY is still 1 publishes nothing: only the last beat publishes, and it drops
BUSY (R100). -/
theorem offerBeat_keeps_lastPublished {q : SeqPos} {p : Pair} {s t : State}
    (h : offerBeat q p s = .next t) (ht : t.busy = true) : t.lastPublished = s.lastPublished := by
  obtain ⟨-, -, ⟨-, rfl⟩ | ⟨q', -, -, rfl⟩ | ⟨-, -, rfl⟩⟩ := offerBeat_next h
  · exact lastPublished_of_trace s.mediumAnswered_trace
  · exact s.mediumAnswered.beatOut_lastPublished q p
  · rw [State.finishTrain_busy] at ht; cases ht

/-- No operation that completes while BUSY is 0 publishes: STATE and CAPS respond, XMIT hands over
beats, an APPLY only starts its train, and the others let nothing out. -/
theorem exec_when_idle_keeps_lastPublished {i : Instr} {s t : State} (hb : s.busy = false)
    (h : exec i s = .next t) : t.lastPublished = s.lastPublished := by
  obtain ⟨-, -, -, -, -, -, rfl | rfl | ⟨cw, rfl⟩ | htrace⟩ | ⟨prior, -, rfl⟩ | ⟨m, τ, -, rfl⟩ :=
    exec_when_idle hb h
  · rw [exec_state_idle hb] at h; cases h
    exact s.respond_lastPublished _
  · rw [exec_caps_idle hb] at h; cases h
    exact s.respond_lastPublished _
  · cases h
    exact s.submit_lastPublished carrierHz (trainPairs cw)
  · exact lastPublished_of_trace htrace
  · exact lastPublished_of_trace (s.loadPrior_trace prior)
  · exact lastPublished_of_trace (s.startApply_trace m τ)

/-- Every step from BUSY 0 leaves the snapshot alone, a reset too: it takes back nothing that has
left the block (R29). -/
theorem step_idle_keeps_lastPublished {s t : State} (hb : s.busy = false) (h : step s = .next t) :
    t.lastPublished = s.lastPublished := by
  rcases step_next h with ⟨-, -, rfl⟩ | ⟨-, hbusy, -⟩ | ⟨-, -, b, i, -, -, he⟩ |
    ⟨-, -, -, -, rfl⟩ | ⟨-, -, -, rest, -, rfl⟩ | ⟨-, -, -, w, rest, i, -, -, he⟩
  · exact lastPublished_of_trace s.takeReset_trace
  · rw [hb] at hbusy; cases hbusy
  · exact (exec_when_idle_keeps_lastPublished (s := s.benchTaken) hb he).trans
      (lastPublished_of_trace s.benchTaken_trace)
  · rfl
  · exact lastPublished_of_trace (s.setHost_trace rest)
  · exact (exec_when_idle_keeps_lastPublished (s := s.setHost rest) hb he).trans
      (lastPublished_of_trace (s.setHost_trace rest))

/-- A step from BUSY 1 is one beat, so the snapshot stays while the train goes on. -/
theorem step_busy_keeps_lastPublished {s t : State} (hb : s.busy = true) (h : step s = .next t)
    (ht : t.busy = true) : t.lastPublished = s.lastPublished := by
  obtain ⟨-, i, hd, he⟩ : s.rst = false ∧ ∃ i, decodeSeq s.seq = .ok i ∧ exec i s = .next t := by
    simpa [hb] using step_next h
  obtain ⟨p, -, hp⟩ := exec_of_decodeSeq hd
  exact offerBeat_keeps_lastPublished (hp ▸ he) ht

end Sys2Proof.Machine

namespace Sys2Proof.Proofs

open Sys2Proof.Machine

/-- Settles O54: a step from BUSY 0 publishes nothing, and a step from BUSY 1 publishes only with
the beat that ends the train, after which BUSY is 0. -/
theorem observerLagsUntilPublish : Obligations.ObserverLagsUntilPublish := by
  intro s t h hbusy
  cases hb : s.busy with
  | false => exact step_idle_keeps_lastPublished hb h
  | true =>
    have ht : t.busy = true := hbusy.resolve_left (by simp [hb])
    exact step_busy_keeps_lastPublished hb h ht

end Sys2Proof.Proofs
end

/-!
SUPPORT. The three encodings (30_encoding.md): a composition and its word, a micro-step and its
position, a request and its word, an assembler line. Each decoder is tied to the encoder once, and
the obligations are read off those ties.
-/

namespace Sys2Proof

open Machine

/-! ### Compositions and their words (R54, R82 to R85) -/

/-- The operation that composes mode `m` at `T` degrees. -/
def composition : Mode → Int → Instr
  | .off, _ => .composeOff
  | .auto, T => .composeAuto T
  | .cool, T => .composeCool T
  | .heat, T => .composeHeat T

theorem exec_composition (m : Mode) (T : Int) (s : State) :
    exec (composition m T) s = .next (s.answer (.word (composeWord m T))) := by
  cases m <;> rfl

/-- R87 (b): a word sees only the clamped temperature. -/
theorem composeWord_clampTemp (m : Mode) (T : Int) :
    composeWord m (clampTemp T) = composeWord m T := by
  cases m <;> simp [composeWord, autoWord, coolWord, heatWord, setTempWord, tempCode_clampTemp]

theorem cwWithCode_of_range (pattern : CmdWord) {T : Int} (hT : 17 ≤ T ∧ T ≤ 30) :
    cwWithCode pattern T = some (.cw24 (pattern ||| tempField (tempCode T))) := by
  rw [cwWithCode, codeOfTemp_of_range hT]
  rfl

/-- The tables of R54 hold the words that the composer makes. -/
theorem encode_composition (m : Mode) {T : Int} (hT : 17 ≤ T ∧ T ≤ 30) :
    encode (composition m T) = some (.cw24 (composeWord m T)) := by
  obtain ⟨hauto, hcool, hheat⟩ := pattern_or_tempField (tempCode T)
  cases m with
  | off => rfl
  | auto => exact (cwWithCode_of_range _ hT).trans (congrArg (some ∘ Code.cw24) hauto)
  | cool => exact (cwWithCode_of_range _ hT).trans (congrArg (some ∘ Code.cw24) hcool)
  | heat => exact (cwWithCode_of_range _ hT).trans (congrArg (some ∘ Code.cw24) hheat)

theorem range_of_cwWithCode {pattern : CmdWord} {T : Int} {c : Code}
    (h : cwWithCode pattern T = some c) : 17 ≤ T ∧ T ≤ 30 := by
  obtain ⟨code, hcode, -⟩ := Option.map_eq_some_iff.1 h
  obtain ⟨hlow, hhigh, -⟩ := codeOfTemp_some hcode
  exact ⟨hlow, hhigh⟩

/-- The operations whose word is a command word are the compositions at a temperature of the table. -/
theorem encode_eq_cw24_iff {i : Instr} {w : CmdWord} : encode i = some (.cw24 w) ↔
    ∃ m T, (17 ≤ T ∧ T ≤ 30) ∧ i = composition m T ∧ w = composeWord m T := by
  constructor
  · intro h
    obtain ⟨m, T, hT, rfl⟩ : ∃ m T, (17 ≤ T ∧ T ≤ 30) ∧ i = composition m T := by
      cases i with
      | composeOff => exact ⟨.off, 17, by decide, rfl⟩
      | composeAuto T => exact ⟨.auto, T, range_of_cwWithCode h, rfl⟩
      | composeCool T => exact ⟨.cool, T, range_of_cwWithCode h, rfl⟩
      | composeHeat T => exact ⟨.heat, T, range_of_cwWithCode h, rfl⟩
      | emitBit f j v p => simp [encode] at h
      | _ => cases h
    rw [encode_composition m hT] at h
    cases h
    exact ⟨m, T, hT, rfl, rfl⟩
  · rintro ⟨m, T, hT, rfl, rfl⟩
    exact encode_composition m hT

/-! ### The decoder of command words (R54) -/

/-- A pattern of R54 leaves bits 7:4 free: with code `c` there, the field reads `c` and the other bits
are the pattern. -/
theorem pattern_or_tempField_fields {pattern : CmdWord} (h : pattern &&& cwPatternMask = pattern)
    (c : BitVec 4) :
    (pattern ||| tempField c).extractLsb' 4 4 = c ∧
    (pattern ||| tempField c) &&& cwPatternMask = pattern := by
  have hfield : ∀ c : BitVec 4,
      (tempField c).extractLsb' 4 4 = c ∧ tempField c &&& cwPatternMask = 0#24 := by decide
  have hmask : cwPatternMask.extractLsb' 4 4 = 0#4 := by decide
  have hfree : pattern.extractLsb' 4 4 = 0#4 := by
    rw [← h, BitVec.extractLsb'_and, hmask, BitVec.and_zero]
  constructor
  · rw [BitVec.extractLsb'_or, hfree, (hfield c).1, BitVec.zero_or]
  · rw [BitVec.and_comm, BitVec.and_or_distrib_left, BitVec.and_comm, h, BitVec.and_comm,
      (hfield c).2, BitVec.or_zero]

/-- A pattern with the code of a temperature is decoded by its other bits; `0xB27B00` is what the OFF
word leaves there. -/
theorem decodeCw_pattern {pattern : CmdWord} (h : pattern &&& cwPatternMask = pattern)
    (hoff : pattern ≠ 0xB27B00#24) {T : Int} (hT : 17 ≤ T ∧ T ≤ 30) :
    decodeCw (pattern ||| tempField (tempCode T)) =
      if pattern = 0xB21F08#24 then .ok (.composeAuto T)
      else if pattern = 0xB2BF00#24 then .ok (.composeCool T)
      else if pattern = 0xB2BF0C#24 then .ok (.composeHeat T)
      else .error .notACommandWord := by
  obtain ⟨hcode, hmask⟩ := pattern_or_tempField_fields h (tempCode T)
  have hne : pattern ||| tempField (tempCode T) ≠ 0xB27BE0#24 := by
    intro heq
    rw [heq] at hmask
    exact hoff hmask.symm
  rw [decodeCw, if_neg hne, hcode, tempOfCode_tempCode hT, hmask]

theorem decodeCw_composeWord (m : Mode) {T : Int} (hT : 17 ≤ T ∧ T ≤ 30) :
    decodeCw (composeWord m T) = .ok (composition m T) := by
  obtain ⟨hauto, hcool, hheat⟩ := pattern_or_tempField (tempCode T)
  cases m with
  | off => rfl
  | auto => exact (congrArg decodeCw hauto).symm.trans (decodeCw_pattern (by decide) (by decide) hT)
  | cool => exact (congrArg decodeCw hcool).symm.trans (decodeCw_pattern (by decide) (by decide) hT)
  | heat => exact (congrArg decodeCw hheat).symm.trans (decodeCw_pattern (by decide) (by decide) hT)

/-- What the decoder of command words accepts: the OFF word, and each pattern of R54 with the code of
a temperature (R64, R89). -/
theorem decodeCw_ok {w : CmdWord} {i : Instr} (h : decodeCw w = .ok i) :
    ∃ m T, (17 ≤ T ∧ T ≤ 30) ∧ i = composition m T ∧ w = composeWord m T := by
  unfold decodeCw at h
  split at h
  next hw => exact ⟨.off, 17, by decide, (Except.ok.inj h).symm, hw⟩
  next =>
    split at h
    next => cases h
    next T htemp =>
      obtain ⟨hlow, hhigh, hcode⟩ := tempOfCode_some _ T htemp
      obtain ⟨hauto, hcool, hheat⟩ := pattern_or_tempField (w.extractLsb' 4 4)
      rw [← hcode] at hauto hcool hheat
      split at h
      next hw =>
        exact ⟨.auto, T, ⟨hlow, hhigh⟩, (Except.ok.inj h).symm,
          (eq_of_pattern w _ hw).trans (hcode ▸ hauto)⟩
      next =>
        split at h
        next hw =>
          exact ⟨.cool, T, ⟨hlow, hhigh⟩, (Except.ok.inj h).symm,
            (eq_of_pattern w _ hw).trans (hcode ▸ hcool)⟩
        next =>
          split at h
          next hw =>
            exact ⟨.heat, T, ⟨hlow, hhigh⟩, (Except.ok.inj h).symm,
              (eq_of_pattern w _ hw).trans (hcode ▸ hheat)⟩
          next => cases h

/-- On command words decoder and encoder are inverse. -/
theorem decodeCw_eq_ok_iff {w : CmdWord} {i : Instr} :
    decodeCw w = .ok i ↔ encode i = some (.cw24 w) := by
  rw [encode_eq_cw24_iff]
  constructor
  · exact decodeCw_ok
  · rintro ⟨m, T, hT, rfl, rfl⟩
    exact decodeCw_composeWord m hT

/-! ### The decoder of positions (R61) -/

theorem decodeSeq_hdrPos (f : Bool) : decodeSeq (hdrPos f) = .ok (.emitHdr f) := by
  cases f <;> rfl

theorem decodeSeq_ftrPos (f : Bool) : decodeSeq (ftrPos f) = .ok (.emitFtr f) := by
  cases f <;> rfl

theorem seqF_bitPos : ∀ (f : Bool) (j : BitVec 2) (v : Bool) (p : BitVec 3),
    seqF (bitPos f j v p) = f := by decide

theorem decodeSeq_bitPos (f : Bool) {j : BitVec 2} (v : Bool) (p : BitVec 3) (hj : j ≠ 3) :
    decodeSeq (bitPos f j v p) = .ok (.emitBit f j v p) := by
  obtain ⟨hlegal, hph, hj', hv, hp⟩ := bitPos_fields f v j p hj
  simp [decodeSeq, hlegal, hph, hj', hv, hp, seqF_bitPos, phData, phHeader]

/-- On positions decoder and encoder are inverse. -/
theorem decodeSeq_eq_ok_iff {q : SeqPos} {i : Instr} :
    decodeSeq q = .ok i ↔ encode i = some (.seq9 q) := by
  constructor
  · intro h
    rcases decodeSeq_ok q i h with ⟨f, rfl, rfl⟩ | ⟨f, j, v, p, rfl, rfl, hj⟩ | ⟨f, rfl, rfl⟩
    · rfl
    · exact if_pos hj
    · rfl
  · intro h
    cases i with
    | emitHdr f => cases h; exact decodeSeq_hdrPos f
    | emitBit f j v p =>
      obtain ⟨hj, rfl⟩ : j ≠ 3 ∧ bitPos f j v p = q := by simpa [encode] using h
      exact decodeSeq_bitPos f v p hj
    | emitFtr f => cases h; exact decodeSeq_ftrPos f
    | composeAuto T | composeCool T | composeHeat T => simp [encode, cwWithCode] at h
    | _ => cases h

/-! ### What the fetch does with what it decoded -/

theorem runDecoded_ok {d : Except Reject Instr} {i : Instr} (h : d = .ok i) (s : State) :
    runDecoded d s = .run i s := by rw [h]; rfl

theorem runDecoded_error {d : Except Reject Instr} {r : Reject} (h : d = .error r) (s : State) :
    runDecoded d s = .stop (refusalOf r) := by rw [h]; rfl

/-! ### Beats that are refused (R61, R66, R99) -/

theorem offers_eq_false {s : State} {q : SeqPos} (h : s.busy = false ∨ s.seq ≠ q) :
    s.offers q = false := by
  rcases h with h | h <;> simp [State.offers, h]

theorem offerBeat_unreachable {q : SeqPos} {p : Pair} {s : State} (ho : s.offers q = true)
    (hn : nextPos q = none) : offerBeat q p s = .refused .unreachablePosition := by
  simp [offerBeat, ho, hn]

/-- There is no byte 3 (R66). -/
theorem nextPos_bitPos_three : ∀ (f v : Bool) (p : BitVec 3), nextPos (bitPos f 3 v p) = none := by
  decide

/-! ### The decoder of requests (R58, R59) -/

theorem decodeReq_initWord (prior : Option (Mode × Temp)) :
    decodeReq (initWord prior) = .ok (.init prior) := by
  cases prior with
  | none => simp [initWord, decodeReq_packs, present]
  | some mt => simp [initWord, decodeReq_packs, present]

theorem decodeReq_applyWord (m : Option Mode) (t : Option Temp) :
    decodeReq (applyWord m t) = .ok (.apply m t) := by
  cases m <;> cases t <;> simp [applyWord, decodeReq_packs, present]

theorem decodeReq_of_encode {i : Instr} {w : PortWord} (h : encode i = some (.req16 w)) :
    decodeReq w = .ok i := by
  cases i with
  | init prior => cases h; exact decodeReq_initWord prior
  | apply m t => cases h; exact decodeReq_applyWord m t
  | state => cases h; rfl
  | caps => cases h; rfl
  | emitBit f j v p => simp [encode] at h
  | composeAuto T | composeCool T | composeHeat T => simp [encode, cwWithCode] at h
  | _ => cases h

/-- What the decoder of requests accepts, by `op`; the fields of the word are the operands. -/
theorem decodeReq_ok {w : PortWord} {i : Instr} (h : decodeReq w = .ok i) : reqZ w = 0 ∧
    ((reqOp w = 0 ∧ i = .init (present (reqE w) (reqMode w, reqTemp w))) ∨
     (reqOp w = 1 ∧ i = .apply (present (reqE w) (reqMode w)) (present (reqG w) (reqTemp w))) ∨
     (reqOp w = 2 ∧ i = .state) ∨ (reqOp w = 3 ∧ i = .caps)) := by
  have hop : ∀ op : BitVec 2, op ≠ 0 → op ≠ 1 → op ≠ 2 → op = 3 := by decide
  unfold decodeReq at h
  split at h
  next => cases h
  next hz =>
    refine ⟨not_not.1 hz, ?_⟩
    split at h
    next h0 => exact .inl ⟨h0, (Except.ok.inj h).symm⟩
    next h0 =>
      split at h
      next h1 => exact .inr (.inl ⟨h1, (Except.ok.inj h).symm⟩)
      next h1 =>
        split at h
        next h2 => exact .inr (.inr (.inl ⟨h2, (Except.ok.inj h).symm⟩))
        next h2 => exact .inr (.inr (.inr ⟨hop _ h0 h1 h2, (Except.ok.inj h).symm⟩))

/-- R67: there is one reason to reject a request. -/
theorem decodeReq_reserved {w : PortWord} (h : w.extractLsb' 8 2 ≠ 0#2) :
    decodeReq w = .error .reservedRequest := if_pos h

/-! ### The ignored bits of a request (R58) -/

theorem reqOp_and (w mask : PortWord) : reqOp (w &&& mask) = reqOp w &&& reqOp mask :=
  BitVec.extractLsb'_and

theorem reqE_and (w mask : PortWord) : reqE (w &&& mask) = (reqE w && reqE mask) :=
  BitVec.getLsbD_and

theorem reqG_and (w mask : PortWord) : reqG (w &&& mask) = (reqG w && reqG mask) :=
  BitVec.getLsbD_and

theorem reqZ_and (w mask : PortWord) : reqZ (w &&& mask) = reqZ w &&& reqZ mask :=
  BitVec.extractLsb'_and

theorem reqTemp_and (w mask : PortWord) : reqTemp (w &&& mask) = reqTemp w &&& reqTemp mask :=
  BitVec.extractLsb'_and

/-- All bits of a field that takes part, none of one that does not. -/
def fieldMask {n : Nat} (here : Bool) : BitVec n := if here then BitVec.allOnes n else 0#n

@[simp] theorem and_fieldMask {n : Nat} (x : BitVec n) (here : Bool) :
    x &&& fieldMask here = if here then x else 0#n := by
  cases here <;> simp [fieldMask]

/-- The mask that keeps `op`, bits 9:8 and the named fields of a request. -/
def keepMask (e mode g temp : Bool) : PortWord :=
  packReq 3 e (fieldMask mode) g (fieldMask temp) ||| 0x0300#16

/-- The bits of a request that take part in a decision, by the operation that it decodes to. -/
def requestMask : Instr → PortWord
  | .init prior => keepMask true prior.isSome false prior.isSome
  | .apply m t => keepMask true m.isSome true t.isSome
  | _ => keepMask false false false false

theorem keepMask_fields : ∀ e mode g temp : Bool,
    reqOp (keepMask e mode g temp) = 3 ∧ reqE (keepMask e mode g temp) = e ∧
    (keepMask e mode g temp).extractLsb' 11 2 = fieldMask mode ∧
    reqG (keepMask e mode g temp) = g ∧ reqTemp (keepMask e mode g temp) = fieldMask temp := by
  decide

/-- The masks of R58, written out: INIT without and with a restored state, the four forms of APPLY,
STATE and CAPS. -/
theorem keepMask_words :
    keepMask true false false false = 0xE300#16 ∧ keepMask true true false true = 0xFBFF#16 ∧
    keepMask true false true false = 0xE700#16 ∧ keepMask true true true false = 0xFF00#16 ∧
    keepMask true false true true = 0xE7FF#16 ∧ keepMask true true true true = 0xFFFF#16 ∧
    keepMask false false false false = 0xC300#16 := by decide

/-- Masking a request that is not reserved keeps or clears each of its fields. -/
theorem and_keepMask {w : PortWord} (h : reqZ w = 0) (e mode g temp : Bool) :
    w &&& keepMask e mode g temp =
      packReq (reqOp w) (reqE w && e) (if mode then w.extractLsb' 11 2 else 0) (reqG w && g)
        (if temp then reqTemp w else 0) := by
  obtain ⟨hop, he, hmode, hg, htemp⟩ := keepMask_fields e mode g temp
  have hz : reqZ (w &&& keepMask e mode g temp) = 0 := by rw [reqZ_and, h]; exact BitVec.zero_and
  have hkeep : ∀ op : BitVec 2, op &&& 3 = op := by decide
  rw [← packReq_self _ hz, reqOp_and, reqE_and, BitVec.extractLsb'_and, reqG_and, reqTemp_and, hop, he,
    hmode, hg, htemp, hkeep, and_fieldMask, and_fieldMask]
  rfl

/-- The encoder packs 0 for what takes part in no decision, and every other field as it was read. -/
theorem encode_of_decodeReq {w : PortWord} {i : Instr} (h : decodeReq w = .ok i) :
    encode i = some (.req16 (w &&& requestMask i)) := by
  obtain ⟨hz, ⟨hop, rfl⟩ | ⟨hop, rfl⟩ | ⟨hop, rfl⟩ | ⟨hop, rfl⟩⟩ := decodeReq_ok h
  · cases he : reqE w <;>
      simp [present, encode, initWord, requestMask, and_keepMask hz, hop, he, reqMode]
  · cases he : reqE w <;> cases hg : reqG w <;>
      simp [present, encode, applyWord, requestMask, and_keepMask hz, hop, he, hg, reqMode]
  · simp [encode, stateReqWord, requestMask, and_keepMask hz, hop]
  · simp [encode, capsReqWord, requestMask, and_keepMask hz, hop]

/-! ### All three formats -/

theorem encode_of_encodable {i : Instr} (h : i.encodable = true) : ∃ c, encode i = some c := by
  cases i with
  | composeAuto T | composeCool T | composeHeat T =>
    exact Option.isSome_iff_exists.1 (Laws.EncodingRow.cwWithCode_isSome _ T h)
  | emitBit f j v p => exact ⟨_, if_pos (by simpa [Instr.encodable] using h)⟩
  | composeOff | init _ | apply _ _ | state | caps | emitHdr _ | emitFtr _ => exact ⟨_, rfl⟩
  | _ => cases h

/-- The word of an operation decodes to it, whatever its format. -/
theorem decode_of_encode {i : Instr} {c : Code} (h : encode i = some c) : decode c = .ok i := by
  cases c with
  | cw24 w => exact decodeCw_eq_ok_iff.2 h
  | req16 w => exact decodeReq_of_encode h
  | seq9 q => exact decodeSeq_eq_ok_iff.2 h

theorem composition_encodable (m : Mode) {T : Int} (hT : 17 ≤ T ∧ T ≤ 30) :
    (composition m T).wellFormed = true ∧ (composition m T).encodable = true := by
  cases m <;> simp [composition, Instr.wellFormed, Instr.encodable, tempEncodable, hT]

theorem wellFormed_encodable_of_decode {c : Code} {i : Instr} (h : decode c = .ok i) :
    i.wellFormed = true ∧ i.encodable = true := by
  cases c with
  | cw24 w =>
    obtain ⟨m, T, hT, rfl, -⟩ := decodeCw_ok h
    exact composition_encodable m hT
  | req16 w =>
    rcases decodeReq_kinds h with ⟨p, rfl⟩ | ⟨m, t, rfl⟩ | rfl | rfl <;> exact ⟨rfl, rfl⟩
  | seq9 q =>
    rcases decodeSeq_ok q i h with ⟨f, rfl, -⟩ | ⟨f, j, v, p, rfl, -, hj⟩ | ⟨f, rfl, -⟩
    · exact ⟨rfl, rfl⟩
    · exact ⟨decide_eq_true hj, decide_eq_true hj⟩
    · exact ⟨rfl, rfl⟩

/-! ### Assembler lines (R69) -/

/-- The sum of R69 is the packed request; `T & 0xFF` is the stored temperature. -/
theorem asmWord_eq_packReq (op : BitVec 2) (e : Bool) (mode : BitVec 2) (g : Bool) (T : Int) :
    asmWord op.toNat e mode.toNat g T = packReq op e mode g (BitVec.ofInt 8 T) := by
  apply BitVec.eq_of_toNat_eq
  have hlt := (packReq op e mode g (BitVec.ofInt 8 T)).isLt
  rw [packReq_toNat, BitVec.toNat_ofInt] at hlt
  rw [packReq_toNat, BitVec.toNat_ofInt, asmWord, BitVec.toNat_ofNat]
  exact Nat.mod_eq_of_lt hlt

/-- A line is writable when it carries no temperature or one in -128..127. -/
def Machine.AsmLine.writable : AsmLine → Bool
  | .init (some (_, T)) => tempWritable T
  | .apply _ (some T) => tempWritable T
  | _ => true

/-- The word of a line with a temperature, as a code. -/
theorem map_req16_of_tempWritable (T : Int) {w r : PortWord} (h : w = r) :
    (if tempWritable T then some w else none).map Code.req16 =
      if tempWritable T then some (.req16 r) else none := by
  rw [h]
  split <;> rfl

/-- The assembler and the encoder, line by line: a writable line has the encoder's word, another has
none. -/
theorem assembleLine_eq_encode (line : AsmLine) :
    (assembleLine line).map .req16 = if line.writable then encode line.toInstr else none := by
  rcases line with (_ | ⟨m, T⟩) | ⟨_ | m, _ | T⟩ | _ | _
  · exact congrArg (some ∘ Code.req16) (asmWord_eq_packReq 0 false 0 false 0)
  · exact map_req16_of_tempWritable T (asmWord_eq_packReq 0 true m.toBits false T)
  · exact congrArg (some ∘ Code.req16) (asmWord_eq_packReq 1 false 0 false 0)
  · exact map_req16_of_tempWritable T (asmWord_eq_packReq 1 false 0 true T)
  · exact congrArg (some ∘ Code.req16) (asmWord_eq_packReq 1 true m.toBits false 0)
  · exact map_req16_of_tempWritable T (asmWord_eq_packReq 1 true m.toBits true T)
  · exact congrArg (some ∘ Code.req16) (asmWord_eq_packReq 2 false 0 false 0)
  · exact congrArg (some ∘ Code.req16) (asmWord_eq_packReq 3 false 0 false 0)

theorem Machine.AsmLine.toInstr_encodable (line : AsmLine) : line.toInstr.encodable = true := by
  cases line <;> rfl

theorem encode_of_assembleLine {line : AsmLine} {w : PortWord} (h : assembleLine line = some w) :
    encode line.toInstr = some (.req16 w) := by
  have hline := assembleLine_eq_encode line
  rw [h] at hline
  split at hline
  next => exact hline.symm
  next => cases hline

theorem assembleLine_eq_none_iff (line : AsmLine) :
    assembleLine line = none ↔ line.writable = false := by
  obtain ⟨c, hc⟩ := encode_of_encodable line.toInstr_encodable
  rw [← Option.map_eq_none_iff (f := Code.req16), assembleLine_eq_encode, hc]
  simp

theorem Machine.AsmLine.not_writable_iff (line : AsmLine) : line.writable = false ↔
    (∃ m T, line = .init (some (m, T)) ∧ ¬(-128 ≤ T ∧ T ≤ 127)) ∨
    (∃ m T, line = .apply m (some T) ∧ ¬(-128 ≤ T ∧ T ≤ 127)) := by
  rcases line with (_ | ⟨m, T⟩) | ⟨m, _ | T⟩ | _ | _ <;> simp [AsmLine.writable, tempWritable]

end Sys2Proof

namespace Sys2Proof.Proofs

open Sys2Proof Sys2Proof.Machine

/-- Settles O55: the operation has a word, and its word decodes to it. -/
theorem decodeOfEncodeIsTheInstruction : Obligations.DecodeOfEncodeIsTheInstruction := by
  intro i hi
  obtain ⟨c, hc⟩ := encode_of_encodable hi
  exact ⟨c, hc, decode_of_encode hc⟩

/-- Settles O17: the words that decode are those of the compositions in 17..30, and a temperature
outside is composed as the one that it is clamped to. -/
theorem decodableWordsAreTheComposedOnes : Obligations.DecodableWordsAreTheComposedOnes := by
  intro w s
  constructor
  · rintro ⟨i, hi⟩
    obtain ⟨m, T, -, -, rfl⟩ := decodeCw_ok hi
    exact ⟨m, T, rfl⟩
  · rintro ⟨m, T, h⟩
    have hw : composeWord m T = w := by
      simpa [exec, execCompose, State.answer] using h
    rw [← hw, ← composeWord_clampTemp]
    exact ⟨_, decodeCw_composeWord m (clampTemp_bounds T)⟩

/-- Settles O18: an operation with a command word is a composition. -/
theorem encodedCompositionIsItsResult : Obligations.EncodedCompositionIsItsResult := by
  intro i w s h
  obtain ⟨m, T, -, rfl, rfl⟩ := encode_eq_cw24_iff.1 h
  exact exec_composition m T s

/-- Settles O56, by the two formats on which decoder and encoder are inverse. -/
theorem encodeOfDecodeIsTheWord : Obligations.EncodeOfDecodeIsTheWord := by
  intro c i h
  obtain ⟨hwf, henc⟩ := wellFormed_encodable_of_decode h
  refine ⟨hwf, henc, ?_, ?_⟩
  · rintro q rfl
    exact decodeSeq_eq_ok_iff.1 h
  · rintro w rfl
    exact decodeCw_eq_ok_iff.1 h

/-- Settles O57: the seven masks of the statement are `requestMask`, form by form. -/
theorem ignoredRequestBits : Obligations.IgnoredRequestBits := by
  intro w i h
  have hmask := encode_of_decodeReq h
  rcases decodeReq_kinds h with ⟨_ | prior, rfl⟩ | ⟨_ | m, _ | t, rfl⟩ | rfl | rfl <;>
    simpa only [requestMask, Option.isSome, keepMask_words] using hmask

/-- Settles O58, by the tie of the assembler to the encoder. -/
theorem assemblerAgreesWithEncoder : Obligations.AssemblerAgreesWithEncoder := by
  intro line
  refine ⟨fun w h => ?_, (assembleLine_eq_none_iff line).trans line.not_writable_iff⟩
  have hc := encode_of_assembleLine h
  exact ⟨hc, decode_of_encode hc⟩

/-- Settles O33: a beat runs only where BUSY and SEQ offer it, the position of byte 3 has no NEXT, and
the fetch decodes no position outside the 100. -/
theorem beatsWithoutMeaningAreRefused : Obligations.BeatsWithoutMeaningAreRefused := by
  intro f v j p s
  refine ⟨fun h => offerBeat_refused (offers_eq_false h), fun h => offerBeat_refused (offers_eq_false h),
    fun h => offerBeat_refused (offers_eq_false h), ?_, ?_⟩
  · rintro ⟨hb, hq⟩
    exact offerBeat_unreachable ((offers_iff s _).2 ⟨hb, hq⟩) (nextPos_bitPos_three f v p)
  · rintro ⟨hr, hb, hl⟩
    exact step_of_stop ((fetch_busy hr hb).trans (runDecoded_error (decodeSeq_illegal s.seq hl) s))

/-- Settles O44: the fetch runs what it decodes, on the state with the request or the bench item used
up. -/
theorem stepRunsTheDecodedInstruction : Obligations.StepRunsTheDecodedInstruction := by
  intro i s hr
  refine ⟨fun hb hd => ?_, fun w rest hb hs hh hd => ?_, fun w hb hs hd => ?_, fun hb hs => ?_⟩
  · exact step_of_run ((fetch_busy hr hb).trans (runDecoded_ok hd s))
  · exact step_of_run ((fetch_offer hr hb hs hh).trans (runDecoded_ok hd (s.setHost rest)))
  · exact step_of_run ((fetch_bench hr hb hs).trans (runDecoded_ok hd s.benchTaken))
  · exact step_of_run ((fetch_bench hr hb hs).trans (runDecoded_ok rfl s.benchTaken))

/-- Settles O46: bits 9:8 are all that the decoder looks at to reject, and the fetch stops with its
reason. -/
theorem reservedRequestsAreRefused : Obligations.ReservedRequestsAreRefused := by
  refine fun w => ⟨decodeReq_err w, fun s rest hw hr hb hs hh => ?_⟩
  exact step_of_stop ((fetch_offer hr hb hs hh).trans
    (runDecoded_error (decodeReq_reserved hw) (s.setHost rest)))

/-- Settles O9: the symbols of the protocol's tick counts, in microseconds. -/
theorem symbolsAreTheirPairs : Obligations.SymbolsAreTheirPairs :=
  fun _ => ⟨rfl, rfl, rfl, rfl⟩

/-- Settles O59, by reading off the fields of each word. -/
theorem sampleWordsDecode : Obligations.SampleWordsDecode :=
  ⟨rfl, rfl, rfl, rfl, rfl, rfl⟩

end Sys2Proof.Proofs

/-!
SUPPORT. The temperature clamp and code table (40_temperature_lut.md): what CLAMP, TLUT and TCODE
answer, by the reads of the table; and the properties of the fourteen literals (R73), each a
property of the list `lut` that is carried over to the reads.
-/

namespace Sys2Proof.Machine

/-! ### The clamp (R70) -/

theorem clampTemp_eq_max_min (T : Int) : clampTemp T = max 17 (min T 30) := by
  unfold clampTemp tempMin tempMax
  split
  · omega
  · split <;> omega

theorem clampTemp_monotone : Monotone clampTemp := by
  intro T U h
  rw [clampTemp_eq_max_min, clampTemp_eq_max_min]
  exact max_le_max_left 17 (min_le_min_right 30 h)

/-! ### Reads of the table (R71, R72) -/

theorem lutRead_inside {i : Int} (h : 0 ≤ i ∧ i ≤ 13) :
    lutRead i = some (lut.getD i.toNat 0#4) := by
  obtain ⟨c, hc⟩ := Option.isSome_iff_exists.1 (lutRead_isSome i h)
  have hentry : lut[i.toNat]? = some c := by rwa [lutRead, if_pos h] at hc
  rw [hc, List.getD_eq_getElem?_getD, hentry, Option.getD_some]

/-- A read that has a value is an entry of the list. -/
theorem getElem?_of_lutRead {i : Int} {c : BitVec 4} (h : lutRead i = some c) :
    ∃ k : Nat, i = k ∧ lut[k]? = some c := by
  have hrange := lutRead_range h
  rw [lutRead, if_pos hrange] at h
  exact ⟨i.toNat, (Int.toNat_of_nonneg hrange.1).symm, h⟩

/-! ### Properties of the fourteen literals (R73) -/

/-- Two codes that differ in exactly one of their four bits. -/
abbrev OneBitApart (c d : BitVec 4) : Prop :=
  c ^^^ d = 1#4 ∨ c ^^^ d = 2#4 ∨ c ^^^ d = 4#4 ∨ c ^^^ d = 8#4

theorem lut_nodup : lut.Nodup := by decide

theorem unused_codes_not_mem_lut : 0b1110#4 ∉ lut ∧ 0b1111#4 ∉ lut := by decide

theorem lut_isChain_oneBitApart : lut.IsChain OneBitApart := by decide

/-- R73 (a): the table has no code twice. -/
theorem lutRead_inj {i j : Int} {c : BitVec 4} (hi : lutRead i = some c) (hj : lutRead j = some c) :
    i = j := by
  obtain ⟨k, rfl, hk⟩ := getElem?_of_lutRead hi
  obtain ⟨l, rfl, hl⟩ := getElem?_of_lutRead hj
  obtain ⟨hlt, -⟩ := List.getElem?_eq_some_iff.1 hk
  exact congrArg Nat.cast ((List.getElem?_inj hlt lut_nodup).1 (hk.trans hl.symm))

theorem mem_lut_of_lutRead {i : Int} {c : BitVec 4} (h : lutRead i = some c) : c ∈ lut := by
  obtain ⟨k, -, hk⟩ := getElem?_of_lutRead h
  exact List.mem_of_getElem? hk

/-- R73 (c): the reads at neighbouring indices. -/
theorem lutRead_neighbours {i : Int} {c d : BitVec 4} (hi : lutRead i = some c)
    (hj : lutRead (i + 1) = some d) : OneBitApart c d := by
  obtain ⟨k, rfl, hk⟩ := getElem?_of_lutRead hi
  obtain ⟨l, hkl, hl⟩ := getElem?_of_lutRead hj
  obtain rfl : l = k + 1 := by omega
  obtain ⟨hlt, rfl⟩ := List.getElem?_eq_some_iff.1 hl
  obtain ⟨-, rfl⟩ := List.getElem?_eq_some_iff.1 hk
  exact List.isChain_iff_getElem.1 lut_isChain_oneBitApart k hlt

/-! ### The codes at the two ends (R74) -/

theorem tempCode_low {T : Int} (h : T ≤ 17) : tempCode T = 0x0#4 := by
  rw [← tempCode_clampTemp, clampTemp_low h]
  rfl

theorem tempCode_high {T : Int} (h : 30 ≤ T) : tempCode T = 0xB#4 := by
  rw [← tempCode_clampTemp, clampTemp_high h]
  rfl

/-! ### What the three operations answer -/

theorem exec_clamp (T : Int) (s : State) :
    exec (.clamp T) s = .next (s.answer (.int (clampTemp T))) := rfl

theorem exec_tcode (T : Int) (s : State) :
    exec (.tcode T) s = .next (s.answer (.code (tempCode T))) := rfl

theorem exec_tlut_of_some {i : Int} {c : BitVec 4} (h : lutRead i = some c) (s : State) :
    exec (.tlut i) s = .next (s.answer (.code c)) := by
  simp [exec, execTlut, h]

theorem exec_tlut_of_none {i : Int} (h : lutRead i = none) (s : State) :
    exec (.tlut i) s = .refused .lutIndexOutOfRange := by
  simp [exec, execTlut, h]

/-- TLUT answers a code exactly where the table has that code. -/
theorem exec_tlut_eq_next_iff {i : Int} {c : BitVec 4} {s : State} :
    exec (.tlut i) s = .next (s.answer (.code c)) ↔ lutRead i = some c := by
  refine ⟨fun h => ?_, fun h => exec_tlut_of_some h s⟩
  cases hread : lutRead i with
  | none => rw [exec_tlut_of_none hread] at h; cases h
  | some d =>
    rw [exec_tlut_of_some hread] at h
    simpa [State.answer] using h

end Sys2Proof.Machine

namespace Sys2Proof.Proofs

open Sys2Proof.Machine

/-- Settles O1: the function is `clampTemp`. -/
theorem clampIsTwoSided : Obligations.ClampIsTwoSided :=
  ⟨clampTemp, exec_clamp, fun _ h => clampTemp_low h.le, fun _ h => clampTemp_high h.le,
    fun _ hlow hhigh => clampTemp_of_range ⟨hlow, hhigh⟩, clampTemp_clampTemp,
    fun _ _ h => clampTemp_monotone h⟩

/-- Settles O3: an answer of TLUT is a read of the table, and the three properties hold of the
reads. -/
theorem tableCodesAreDistinct : Obligations.TableCodesAreDistinct := by
  intro i j c d s hi hj
  have hc : lutRead i = some c := exec_tlut_eq_next_iff.1 hi
  have hd : lutRead j = some d := exec_tlut_eq_next_iff.1 hj
  have hmem := mem_lut_of_lutRead hc
  refine ⟨?_, ?_, ?_, ?_⟩
  · rintro hne rfl
    exact hne (lutRead_inj hc hd)
  · rintro rfl
    exact unused_codes_not_mem_lut.1 hmem
  · rintro rfl
    exact unused_codes_not_mem_lut.2 hmem
  · rintro rfl
    exact lutRead_neighbours hc hd

/-- Settles O4: the code is `tempCode T`; the index that the statement writes out is
`clampTemp T - 17`, where the table holds that code. -/
theorem tempCodeIsTheClampedRead : Obligations.TempCodeIsTheClampedRead :=
  fun T s => ⟨tempCode T, exec_tcode T s, exec_tlut_of_some (lutRead_clamped T) s, tempCode_low,
    tempCode_high⟩

/-- Settles O2: the table has an entry at 0..13 and no read elsewhere. -/
theorem tableReadGivesTheLiterals : Obligations.TableReadGivesTheLiterals :=
  fun _ s => ⟨fun h => exec_tlut_of_some (lutRead_inside h) s,
    fun h => exec_tlut_of_none (lutRead_outside h) s⟩

end Sys2Proof.Proofs

/-!
SUPPORT. The serializer (41_bitstream_serializer.md): the bits of a value above its width and modulo
a power of two, the sequences of bits that SER scans, and the pairs they become.
-/

namespace Sys2Proof.Machine

/-! ### The bits of a value (R75) -/

theorem bitOf_eq_testBit (value i : Nat) : bitOf value i = value.testBit i := by
  rw [bitOf_eq, Nat.testBit_eq_decide_div_mod_eq]

theorem bitOf_eq_false_of_width_le {value w i : Nat} (hv : value < 2 ^ w) (hi : w ≤ i) :
    bitOf value i = false := by
  rw [bitOf_eq_testBit]
  exact Nat.testBit_lt_two_pow (hv.trans_le (Nat.pow_le_pow_right two_pos hi))

theorem bitOf_mod_two_pow {n i : Nat} (hi : i < n) (value : Nat) :
    bitOf (value % 2 ^ n) i = bitOf value i := by
  simp [bitOf_eq_testBit, Nat.testBit_mod_two_pow, hi]

/-! ### The bits in scan order (R77, R78) -/

/-- A scan of `n` bits reads the positions below `n` only. -/
theorem bitsMsb_congr {a b n : Nat} (h : ∀ i < n, bitOf a i = bitOf b i) :
    bitsMsb a n = bitsMsb b n := by
  induction n with
  | zero => rfl
  | succ n ih =>
    rw [bitsMsb, bitsMsb, h n n.lt_succ_self, ih fun i hi => h i (hi.trans n.lt_succ_self)]

theorem serBits_lsb_eq_reverse (value n : Nat) :
    serBits value n .lsb = (serBits value n .msb).reverse :=
  bitsLsb_eq_reverse value n

/-- The bits above the width of the value come out first, as zeros. -/
theorem serBits_msb_of_width_le {value w n : Nat} (hv : value < 2 ^ w) (hn : w ≤ n) :
    serBits value n .msb = List.replicate (n - w) false ++ serBits value w .msb := by
  simp only [serBits]
  induction n, hn using Nat.le_induction with
  | base => simp
  | succ n hn ih =>
    rw [bitsMsb, bitOf_eq_false_of_width_le hv hn, ih, Nat.succ_sub hn, List.replicate_succ,
      List.cons_append]

theorem serBits_mod_two_pow (value n : Nat) (order : BitOrder) :
    serBits (value % 2 ^ n) n order = serBits value n order := by
  have hmsb : serBits (value % 2 ^ n) n .msb = serBits value n .msb :=
    bitsMsb_congr fun _ hi => bitOf_mod_two_pow hi value
  cases order with
  | msb => exact hmsb
  | lsb => rw [serBits_lsb_eq_reverse, serBits_lsb_eq_reverse, hmsb]

/-! ### The pairs (R75) -/

section
variable (om os zm zs : Nat)

theorem serPairs_msb_getElem? (value : Nat) {n k : Nat} (hk : k < n) :
    (serPairs om os zm zs value n .msb)[k]? =
      some (if value / 2 ^ (n - 1 - k) % 2 = 1 then ⟨om, os⟩ else ⟨zm, zs⟩) := by
  simp [serPairs, serBits, bitsMsb_getElem? value n k hk, bitOf_eq]

theorem serPairs_lsb_getElem? (value : Nat) {n k : Nat} (hk : k < n) :
    (serPairs om os zm zs value n .lsb)[k]? =
      some (if value / 2 ^ k % 2 = 1 then ⟨om, os⟩ else ⟨zm, zs⟩) := by
  simp [serPairs, serBits, bitsLsb_getElem? value n k hk, bitOf_eq]

theorem serPairs_lsb_eq_reverse (value n : Nat) :
    serPairs om os zm zs value n .lsb = (serPairs om os zm zs value n .msb).reverse := by
  rw [serPairs, serPairs, serBits_lsb_eq_reverse, List.map_reverse]

theorem serPairs_msb_of_width_le {value w n : Nat} (hv : value < 2 ^ w) (hn : w ≤ n) :
    serPairs om os zm zs value n .msb =
      List.replicate (n - w) ⟨zm, zs⟩ ++ serPairs om os zm zs value w .msb := by
  simp [serPairs, serBits_msb_of_width_le hv hn]

/-- For the other order the zero pairs come last: the mirror image of R77. -/
theorem serPairs_lsb_of_width_le {value w n : Nat} (hv : value < 2 ^ w) (hn : w ≤ n) :
    serPairs om os zm zs value n .lsb =
      serPairs om os zm zs value w .lsb ++ List.replicate (n - w) ⟨zm, zs⟩ := by
  rw [serPairs_lsb_eq_reverse, serPairs_msb_of_width_le om os zm zs hv hn, List.reverse_append,
    List.reverse_replicate, ← serPairs_lsb_eq_reverse]

theorem serPairs_mod_two_pow (value n : Nat) (order : BitOrder) :
    serPairs om os zm zs (value % 2 ^ n) n order = serPairs om os zm zs value n order := by
  rw [serPairs, serBits_mod_two_pow, ← serPairs]

theorem serPairs_zero (value : Nat) (order : BitOrder) :
    serPairs om os zm zs value 0 order = [] :=
  List.length_eq_zero_iff.1 (serPairs_length om os zm zs value 0 order)

/-! ### What SER does (R79) -/

theorem exec_ser (value n : Nat) (order : BitOrder) (s : State) :
    exec (.ser om os zm zs value n order) s =
      .next { s with pulses := s.pulses ++ serPairs om os zm zs value n order } := rfl

end

end Sys2Proof.Machine

namespace Sys2Proof.Proofs

open Sys2Proof.Machine

/-- Settles O5: the appended pairs are `serPairs`. -/
theorem serEmitsOnePairPerBit : Obligations.SerEmitsOnePairPerBit := by
  intro om os zm zs value n order s
  refine ⟨serPairs om os zm zs value n order, exec_ser om os zm zs value n order s,
    serPairs_length om os zm zs value n order, fun k hk => ?_⟩
  cases order with
  | msb => exact serPairs_msb_getElem? om os zm zs value hk
  | lsb => exact serPairs_lsb_getElem? om os zm zs value hk

/-- Settles O7: the padding of the pairs for each order, and the reversal. -/
theorem serPadsWithZeroPairs : Obligations.SerPadsWithZeroPairs := by
  intro om os zm zs value w n s hv hn
  refine ⟨serPairs om os zm zs value w .msb, serPairs om os zm zs value w .lsb,
    exec_ser om os zm zs value w .msb s, ?_, exec_ser om os zm zs value w .lsb s, ?_,
    serPairs_length om os zm zs value w .msb, serPairs_lsb_eq_reverse om os zm zs value w⟩
  · rw [exec_ser, serPairs_msb_of_width_le om os zm zs hv hn, List.append_assoc]
  · rw [exec_ser, serPairs_lsb_of_width_le om os zm zs hv hn, List.append_assoc]

/-- Settles O8: no scanned position is at or above the bit count. -/
theorem serIgnoresHighBits : Obligations.SerIgnoresHighBits := by
  intro om os zm zs value n order s
  rw [exec_ser, exec_ser, serPairs_mod_two_pow]

/-- Settles O6: the empty sequence of pairs is appended. -/
theorem serOfNoBitsIsNoOp : Obligations.SerOfNoBitsIsNoOp := by
  intro om os zm zs value order s
  rw [exec_ser, serPairs_zero, List.append_nil]

end Sys2Proof.Proofs

/-!
SUPPORT. The frame composer (42_frame_composer.md): a command word as its three fields, the template
bits 23:8, the temperature code in bits 7:4 and the bits 3:0 with the mode field; the composed words
in that form; and the decoder as what tells two compositions apart.
-/

namespace Sys2Proof.Machine

/-! ### The fields of a command word (R51) -/

/-- A command word by its fields: bits 23:8, the temperature code in bits 7:4, and bits 3:0. -/
def wordOfFields (hi : BitVec 16) (code lo : BitVec 4) : CmdWord := hi ++ code ++ lo

section
variable (hi hi' : BitVec 16) (code code' lo lo' : BitVec 4)

theorem wordOfFields_hi : (wordOfFields hi code lo).extractLsb' 8 16 = hi := by
  rw [wordOfFields, BitVec.extractLsb'_append_eq_of_le (by decide),
    BitVec.extractLsb'_append_eq_of_le (by decide), BitVec.extractLsb'_eq_self]

theorem wordOfFields_code : (wordOfFields hi code lo).extractLsb' 4 4 = code := by
  rw [wordOfFields, BitVec.extractLsb'_append_eq_of_le le_rfl,
    BitVec.extractLsb'_append_eq_of_add_le (by decide), BitVec.extractLsb'_eq_self]

/-- A part of bits 3:0, such as the mode field, is read off the lowest field. -/
theorem wordOfFields_lo {start len : Nat} (h : start + len ≤ 4) :
    (wordOfFields hi code lo).extractLsb' start len = lo.extractLsb' start len := by
  rw [wordOfFields, BitVec.extractLsb'_append_eq_of_add_le h]

theorem wordOfFields_xor : wordOfFields hi code lo ^^^ wordOfFields hi' code' lo' =
    wordOfFields (hi ^^^ hi') (code ^^^ code') (lo ^^^ lo') :=
  BitVec.xor_append.trans (congrArg (· ++ (lo ^^^ lo')) BitVec.xor_append)

theorem wordOfFields_or : wordOfFields hi code lo ||| wordOfFields hi' code' lo' =
    wordOfFields (hi ||| hi') (code ||| code') (lo ||| lo') :=
  BitVec.or_append.trans (congrArg (· ++ (lo ||| lo')) BitVec.or_append)

end

/-- A word is its own three fields. -/
theorem wordOfFields_self (w : CmdWord) :
    wordOfFields (w.extractLsb' 8 16) (w.extractLsb' 4 4) (w.extractLsb' 0 4) = w := by
  have hhead : w.extractLsb' 8 16 ++ w.extractLsb' 4 4 = w.extractLsb' 4 20 :=
    BitVec.extractLsb'_append_extractLsb'_eq_extractLsb' rfl
  have hword : w.extractLsb' 4 20 ++ w.extractLsb' 0 4 = w.extractLsb' 0 24 :=
    BitVec.extractLsb'_append_extractLsb'_eq_extractLsb' rfl
  rw [wordOfFields, hhead, hword, BitVec.extractLsb'_eq_self]

/-! ### SETTEMP by the fields (R86) -/

theorem setTempWord_code (w : CmdWord) (T : Int) :
    (setTempWord w T).extractLsb' 4 4 = tempCode T :=
  (putTempField_fields w (tempCode T)).1

theorem setTempWord_getLsbD (w : CmdWord) (T : Int) {k : Nat} (hk : k < 4 ∨ 8 ≤ k) :
    (setTempWord w T).getLsbD k = w.getLsbD k :=
  (putTempField_fields w (tempCode T)).2 k hk

/-- A field beside bits 7:4 is that of the operand. -/
theorem setTempWord_extractLsb' (w : CmdWord) (T : Int) {start len : Nat}
    (h : start + len ≤ 4 ∨ 8 ≤ start) :
    (setTempWord w T).extractLsb' start len = w.extractLsb' start len := by
  apply BitVec.eq_of_getLsbD_eq
  intro k hk
  rw [BitVec.getLsbD_extractLsb', BitVec.getLsbD_extractLsb', setTempWord_getLsbD w T (by omega)]

/-- SETTEMP replaces the middle field by the code of the temperature. -/
theorem setTempWord_eq_wordOfFields (w : CmdWord) (T : Int) :
    setTempWord w T = wordOfFields (w.extractLsb' 8 16) (tempCode T) (w.extractLsb' 0 4) := by
  rw [← wordOfFields_self (setTempWord w T), setTempWord_code,
    setTempWord_extractLsb' w T (.inr le_rfl), setTempWord_extractLsb' w T (.inl le_rfl)]

/-! ### The composed words by their fields (R83 to R85) -/

theorem autoWord_eq (T : Int) : autoWord T = wordOfFields 0xB21F#16 (tempCode T) 0x8#4 :=
  setTempWord_eq_wordOfFields cwAuto T

theorem coolWord_eq (T : Int) : coolWord T = wordOfFields 0xB2BF#16 (tempCode T) 0x0#4 :=
  setTempWord_eq_wordOfFields (putModeField cwBase modeCool) T

theorem heatWord_eq (T : Int) : heatWord T = wordOfFields 0xB2BF#16 (tempCode T) 0xC#4 :=
  setTempWord_eq_wordOfFields (putModeField cwBase modeHeat) T

theorem autoWord_xor_coolWord (T : Int) : autoWord T ^^^ coolWord T = 0x00A008#24 := by
  rw [autoWord_eq, coolWord_eq, wordOfFields_xor, BitVec.xor_self]
  rfl

theorem autoWord_xor_heatWord (T : Int) : autoWord T ^^^ heatWord T = 0x00A004#24 := by
  rw [autoWord_eq, heatWord_eq, wordOfFields_xor, BitVec.xor_self]
  rfl

/-- R85: from COOL to HEAT only the mode field is set. -/
theorem heatWord_eq_coolWord_or (T : Int) : heatWord T = coolWord T ||| 0x00000C#24 := by
  have hmask : 0x00000C#24 = wordOfFields 0x0000#16 0x0#4 0xC#4 := rfl
  rw [heatWord_eq, coolWord_eq, hmask, wordOfFields_or, BitVec.or_zero, BitVec.or_zero,
    BitVec.zero_or]

/-! ### SETTEMP, COMPOSE and the four cases (R81, R86, R87) -/

theorem exec_setTemp (w : CmdWord) (T : Int) (s : State) :
    exec (.setTemp w T) s = .next (s.answer (.word (setTempWord w T))) := rfl

/-- R81: COMPOSE runs the case of its mode. -/
theorem exec_compose (m : Mode) (T : Int) (s : State) :
    exec (.compose m T) s = exec (composition m T) s := by
  cases m <;> rfl

/-- The case and its temperature can be read back, except that OFF carries no temperature. -/
theorem composition_inj {m n : Mode} {T U : Int} (hm : m ≠ .off)
    (h : composition m T = composition n U) : m = n ∧ T = U := by
  cases m with
  | off => exact absurd rfl hm
  | auto | cool | heat => cases n <;> simp_all [composition]

/-- R87 (c), (d): a word decodes to one composition only. -/
theorem composeWord_inj {m n : Mode} {T U : Int} (hm : m ≠ .off) (hT : 17 ≤ T ∧ T ≤ 30)
    (hU : 17 ≤ U ∧ U ≤ 30) (h : composeWord m T = composeWord n U) : m = n ∧ T = U := by
  have hdecoded := decodeCw_composeWord m hT
  rw [h, decodeCw_composeWord n hU] at hdecoded
  exact composition_inj hm (Except.ok.inj hdecoded).symm

end Sys2Proof.Machine

namespace Sys2Proof.Proofs

open Sys2Proof Sys2Proof.Machine

/-- Settles O12: the AUTO word by its fields, compared with the other two. -/
theorem autoWordKeepsItsTemplate : Obligations.AutoWordKeepsItsTemplate := by
  intro T s
  refine ⟨autoWord T, coolWord T, heatWord T, tempCode T, exec_composition .auto T s,
    exec_composition .cool T s, exec_composition .heat T s, exec_tcode T s, ?_, ?_, ?_, ?_,
    autoWord_xor_coolWord T, autoWord_xor_heatWord T⟩
  · rw [autoWord_eq, wordOfFields_hi]
  · rw [autoWord_eq, wordOfFields_code]
  · rw [autoWord_eq, wordOfFields_lo _ _ _ le_rfl, BitVec.extractLsb'_eq_self]
  · rintro rfl
    rfl

/-- Settles O13: the COOL word by its fields. -/
theorem coolWordFields : Obligations.CoolWordFields := by
  intro T s
  refine ⟨coolWord T, tempCode T, exec_composition .cool T s, exec_tcode T s, ?_⟩
  rw [coolWord_eq]
  refine ⟨?_, ?_, ?_, ?_⟩
  · exact wordOfFields_hi _ _ _
  · exact wordOfFields_code _ _ _
  · exact wordOfFields_lo _ _ _ (by decide)
  · exact wordOfFields_lo _ _ _ (by decide)

/-- Settles O14: the two words differ in the lowest field only. -/
theorem heatWordIsCoolWithModeBits : Obligations.HeatWordIsCoolWithModeBits := by
  intro T s
  refine ⟨heatWord T, coolWord T, exec_composition .heat T s, exec_composition .cool T s,
    heatWord_eq_coolWord_or T, ?_⟩
  rw [heatWord_eq]
  exact wordOfFields_lo _ _ _ (by decide)

/-- Settles O15: SETTEMP is the clear-then-set of bits 7:4 with the code of the temperature. -/
theorem setTempChangesOnlyItsField : Obligations.SetTempChangesOnlyItsField := by
  intro w T s
  exact ⟨setTempWord w T, tempCode T, exec_setTemp w T s, exec_tcode T s, setTempWord_code w T,
    fun _ hk => setTempWord_getLsbD w T hk⟩

/-- Settles O16: the answers carry the words, and a word in 17..30 has one composition. -/
theorem composedWordsAreDistinct : Obligations.ComposedWordsAreDistinct := by
  intro m n T U s hm hT hT' hU hU' h
  have hword : composeWord m T = composeWord n U := by
    simpa [exec_compose, exec_composition, State.answer] using h
  exact composeWord_inj hm ⟨hT, hT'⟩ ⟨hU, hU'⟩ hword

/-- Settles O10: the dispatch, and the word of the clamped temperature. -/
theorem composeDispatchesOnMode : Obligations.ComposeDispatchesOnMode := by
  intro T s
  refine ⟨exec_compose .off T s, exec_compose .auto T s, exec_compose .cool T s,
    exec_compose .heat T s, fun m => ⟨composeWord m T, ?_, ?_⟩⟩
  · exact (exec_compose m T s).trans (exec_composition m T s)
  · rw [← composeWord_clampTemp m T]
    exact (exec_compose m (clampTemp T) s).trans (exec_composition m (clampTemp T) s)

/-- Settles O11: the OFF composition has no operand. -/
theorem offWordIsFixed : Obligations.OffWordIsFixed := by
  intro T s
  have hoff : exec .composeOff s = .next (s.answer (.word 0xB27BE0#24)) :=
    exec_composition .off T s
  exact ⟨hoff, (exec_compose .off T s).trans hoff⟩

end Sys2Proof.Proofs

/-!
SUPPORT. The transmission sequencer (43_transmission_sequencer.md). Functional description: a byte
and its complement as symbols, sequences appended one after the other, and a transmit request as
beats that carry whole pairs. Small-step realisation: the successor of each position, the beat on the
port at each position, a step of a train by the answer of the medium, and the run to the end of a
train.
-/

namespace Sys2Proof.Machine

/-! ### Sequences appended one after the other (R93 to R96) -/

theorem exec_sendByte (b : BitVec 8) (s : State) :
    exec (.sendByte b) s = .next (s.emitAll (sendBytePairs b)) := rfl

theorem exec_payload (cw : CmdWord) (s : State) :
    exec (.payload cw) s = .next (s.emitAll (payloadPairs cw)) := rfl

theorem exec_frame (cw : CmdWord) (s : State) :
    exec (.frame cw) s = .next (s.emitAll (framePairs cw)) := rfl

theorem exec_train (cw : CmdWord) (s : State) :
    exec (.train cw) s = .next (s.emitAll (trainPairs cw)) := rfl

theorem exec_symHdr (s : State) : exec .symHdr s = .next (s.emitAll [headerPair]) := rfl

theorem exec_symFtr (s : State) : exec .symFtr s = .next (s.emitAll [footerPair]) := rfl

theorem State.emitAll_emitAll (s : State) (ps qs : List Pair) :
    (s.emitAll ps).emitAll qs = s.emitAll (ps ++ qs) := by
  simp [State.emitAll, List.append_assoc]

theorem execAll_singleton {i : Instr} {s t : State} (h : exec i s = .next t) :
    execAll [i] s = .next t :=
  execAll_cons h

/-- An operation that appends `ps` puts `ps` in front of what the operations after it append. -/
theorem execAll_cons_of_emits {i : Instr} {is : List Instr} {ps qs : List Pair} {s : State}
    (hi : exec i s = .next (s.emitAll ps))
    (his : execAll is (s.emitAll ps) = .next ((s.emitAll ps).emitAll qs)) :
    execAll (i :: is) s = .next (s.emitAll (ps ++ qs)) := by
  rw [execAll_cons hi, his, State.emitAll_emitAll]

/-! ### A byte and its complement (R93, R80) -/

theorem symbol_eq (b : Bool) : symbol b = ⟨560, if b then 1680 else 560⟩ := by cases b <;> rfl

/-- A bit and its complement last six ticks together, whichever is sent first (R80). -/
theorem symbol_duration_add_not (b : Bool) :
    (symbol b).duration + (symbol (!b)).duration = 3360 := by cases b <;> rfl

theorem serByte_eq_map (b : BitVec 8) : serByte b = (serBits b.toNat 8 .msb).map symbol := rfl

theorem serBits_byte_getElem? (b : BitVec 8) {p : Nat} (hp : p < 8) :
    (serBits b.toNat 8 .msb)[p]? = some (b.getLsbD (7 - p)) := by
  rw [serBits, bitsMsb_getElem? b.toNat 8 p hp, bitOf_toNat]

/-- The bits of the complement are the opposite bits, in the same order. -/
theorem serBits_not (b : BitVec 8) :
    serBits (~~~b).toNat 8 .msb = (serBits b.toNat 8 .msb).map not := by
  simp [serBits, bitsMsb, bitOf_toNat, -BitVec.toNat_not]

/-- SENDBYTE by the bits of its byte: their symbols, then the opposite ones. -/
theorem sendBytePairs_eq_map (b : BitVec 8) : sendBytePairs b =
    (serBits b.toNat 8 .msb).map symbol ++ ((serBits b.toNat 8 .msb).map not).map symbol := by
  rw [sendBytePairs, serByte_eq_map, serByte_eq_map, serBits_not]

theorem totalDuration_append (ps qs : List Pair) :
    totalDuration (ps ++ qs) = totalDuration ps + totalDuration qs := by
  simp [totalDuration]

theorem totalDuration_symbols_and_complements (bits : List Bool) :
    totalDuration (bits.map symbol ++ (bits.map not).map symbol) = 3360 * bits.length := by
  rw [totalDuration_append]
  induction bits with
  | nil => rfl
  | cons b bits ih =>
    have hb := symbol_duration_add_not b
    simp only [totalDuration, List.map_cons, List.sum_cons, List.length_cons] at ih ⊢
    omega

theorem sendBytePairs_duration (b : BitVec 8) : totalDuration (sendBytePairs b) = 26880 := by
  rw [sendBytePairs_eq_map, totalDuration_symbols_and_complements, serBits_length]

theorem sendBytePairs_getElem?_byte (b : BitVec 8) {p : Nat} (hp : p < 8) :
    (sendBytePairs b)[p]? = some (symbol (b.getLsbD (7 - p))) := by
  rw [sendBytePairs_eq_map, List.getElem?_append_left (by simpa using hp), List.getElem?_map,
    serBits_byte_getElem? b hp, Option.map_some]

theorem sendBytePairs_getElem?_complement (b : BitVec 8) {p : Nat} (hp : p < 8) :
    (sendBytePairs b)[8 + p]? = some (symbol (!b.getLsbD (7 - p))) := by
  rw [sendBytePairs_eq_map, List.getElem?_append_right (by simp), List.length_map, serBits_length,
    Nat.add_sub_cancel_left, List.getElem?_map, List.getElem?_map, serBits_byte_getElem? b hp,
    Option.map_some, Option.map_some]

/-! ### The bytes of a word and the pairs of a train (R94 to R97) -/

theorem wordByte_eq_extractLsb' (cw : CmdWord) (j : Nat) :
    wordByte cw j = cw.extractLsb' (16 - 8 * j) 8 := rfl

/-- A train is made of three kinds of pair. -/
theorem mem_trainPairs {cw : CmdWord} {p : Pair} (h : p ∈ trainPairs cw) :
    p = headerPair ∨ p = footerPair ∨ ∃ b, p = symbol b := by
  have hbyte : ∀ b, p ∈ sendBytePairs b → ∃ bit, p = symbol bit := by
    intro b hb
    rw [sendBytePairs_eq_map, ← List.map_append] at hb
    obtain ⟨bit, -, hp⟩ := List.mem_map.1 hb
    exact ⟨bit, hp.symm⟩
  simp only [trainPairs, framePairs, payloadPairs, List.mem_append, List.mem_singleton,
    or_self] at h
  rcases h with (hp | (hp | hp) | hp) | hp
  · exact .inl hp
  · exact .inr (.inr (hbyte _ hp))
  · exact .inr (.inr (hbyte _ hp))
  · exact .inr (.inr (hbyte _ hp))
  · exact .inr (.inl hp)

theorem trainPairs_first (cw : CmdWord) : (trainPairs cw)[0]? = some headerPair :=
  trainPairs_flatPos cw (hdrPos false) rfl

theorem trainPairs_last (cw : CmdWord) : (trainPairs cw)[99]? = some footerPair :=
  trainPairs_flatPos cw (ftrPos true) rfl

/-! ### A transmit request as beats (R57, R98) -/

theorem exec_xmit (cw : CmdWord) (s : State) :
    exec (.xmit cw) s = .next (s.output (trainEvents cw)) := rfl

/-- The pair that a beat carries. -/
def Beat.pair (b : Beat) : Pair := ⟨b.markUs.toNat, b.spaceUs.toNat⟩

/-- The durations of a pair fit the 16-bit fields of a beat (R11). -/
def FitsBeat (p : Pair) : Prop := p.mark < 2 ^ 16 ∧ p.space < 2 ^ 16

theorem mkBeat_pair {p : Pair} (h : FitsBeat p) (first last : Bool) (hz : Nat) :
    (mkBeat first last hz p).pair = p := by
  obtain ⟨hmark, hspace⟩ := h
  simp only [Beat.pair, mkBeat, BitVec.toNat_ofNat, Nat.mod_eq_of_lt hmark, Nat.mod_eq_of_lt hspace]

theorem beatsFrom_map_pair (hz n i : Nat) {ps : List Pair} (h : ∀ p ∈ ps, FitsBeat p) :
    (beatsFrom hz n i ps).map Beat.pair = ps := by
  induction ps generalizing i with
  | nil => rfl
  | cons p ps ih =>
    obtain ⟨hp, hps⟩ := List.forall_mem_cons.1 h
    rw [beatsFrom, List.map_cons, mkBeat_pair hp, ih (i + 1) hps]

theorem trainPairs_fitBeat (cw : CmdWord) : ∀ p ∈ trainPairs cw, FitsBeat p := by
  intro p h
  rcases mem_trainPairs h with rfl | rfl | ⟨b, rfl⟩
  · exact ⟨by decide, by decide⟩
  · exact ⟨by decide, by decide⟩
  · cases b <;> exact ⟨by decide, by decide⟩

/-- The beats of a train's request carry its pairs whole. -/
theorem trainBeats_map_pair (cw : CmdWord) :
    (requestBeats carrierHz (trainPairs cw)).map Beat.pair = trainPairs cw :=
  beatsFrom_map_pair carrierHz _ 0 (trainPairs_fitBeat cw)

theorem trainBeats_flags {cw : CmdWord} {n : Nat} {b : Beat}
    (h : (requestBeats carrierHz (trainPairs cw))[n]? = some b) :
    b.carrierHz = 38000#16 ∧ (b.first = true ↔ n = 0) ∧ (b.last = true ↔ n = 99) := by
  rw [requestBeats_getElem?, trainPairs_length] at h
  obtain ⟨p, -, rfl⟩ := Option.map_eq_some_iff.1 h
  exact ⟨rfl, by simp [mkBeat], by simp [mkBeat]⟩

/-! ### The successor of a position (R101) -/

theorem nextPos_hdrPos (f : Bool) : nextPos (hdrPos f) = some (.goto (bitPos f 0 false 0)) := by
  cases f <;> rfl

theorem nextPos_ftrPos_false : nextPos (ftrPos false) = some (.goto (hdrPos true)) := rfl

theorem nextPos_ftrPos_true : nextPos (ftrPos true) = some .endOfTrain := rfl

/-- The four lines of NEXT in the data phase: the next bit, the complemented copy, the next byte,
the footer. -/
theorem nextPos_bitPos (f v : Bool) {j : BitVec 2} (p : BitVec 3) (hj : j ≠ 3) :
    nextPos (bitPos f j v p) = some (.goto (
      if p ≠ 7 then bitPos f j v (p + 1)
      else if v = false then bitPos f j true 0
      else if j ≠ 2 then bitPos f (j + 1) false 0
      else ftrPos f)) := by
  obtain ⟨hlegal, hph, hj', hv, hp⟩ := bitPos_fields f v j p hj
  have hphase : phData ≠ phHeader := by decide
  simp only [nextPos, hlegal, hph, hj', hv, hp, seqF_bitPos, if_true, if_neg hphase,
    apply_ite Successor.goto, apply_ite some]

theorem exists_nextPos {q : SeqPos} (hl : legalPos q = true) : ∃ n, nextPos q = some n :=
  Option.isSome_iff_exists.1 ((nextPos_isSome q).trans hl)

theorem nextPos_of_illegal {q : SeqPos} (hl : legalPos q = false) : nextPos q = none := by
  simpa [hl] using nextPos_isSome q

/-- Among the 100 positions the one numbered 99 ends the train. -/
theorem nextPos_end_iff_flatPos {q : SeqPos} (hl : legalPos q = true) :
    nextPos q = some .endOfTrain ↔ flatPos q = 99 :=
  (nextPos_end q).trans (flatPos_last q hl).symm

theorem nextPos_of_flatPos_lt {q : SeqPos} (hl : legalPos q = true) (h : flatPos q < 99) :
    ∃ q', nextPos q = some (.goto q') ∧ legalPos q' = true ∧ flatPos q' = flatPos q + 1 := by
  obtain ⟨q' | -, hn⟩ := exists_nextPos hl
  · exact ⟨q', hn, nextPos_goto q q' hn⟩
  · exact absurd ((nextPos_end_iff_flatPos hl).1 hn) h.ne

section
variable {q q' : SeqPos} (s : State)

theorem exec_next_goto (h : nextPos q = some (.goto q')) :
    exec (.next q) s = .next (s.answer (.position q')) := by
  simp only [exec, execNext, h]

theorem exec_next_end (h : nextPos q = some .endOfTrain) :
    exec (.next q) s = .next (s.answer .endOfTrain) := by
  simp only [exec, execNext, h]

theorem exec_next_refused (h : nextPos q = none) :
    exec (.next q) s = .refused .unreachablePosition := by
  simp only [exec, execNext, h]

end

/-! ### The beat on the port at a position (R57, R100) -/

theorem portBeat_hdrPos (f : Bool) :
    portBeat (hdrPos f) headerPair = ⟨!f, false, 4480#16, 4480#16, 38000#16⟩ := by cases f <;> rfl

theorem portBeat_ftrPos (f : Bool) :
    portBeat (ftrPos f) footerPair = ⟨false, f, 560#16, 5040#16, 38000#16⟩ := by cases f <;> rfl

/-- A data position is neither the first nor the last of the train. -/
theorem bitPos_ne_ends : ∀ (f : Bool) (j : BitVec 2) (v : Bool) (p : BitVec 3),
    bitPos f j v p ≠ hdrPos false ∧ bitPos f j v p ≠ ftrPos true := by decide

theorem portBeat_bitPos (f v : Bool) (j : BitVec 2) (p : BitVec 3) (b : Bool) :
    portBeat (bitPos f j v p) (symbol b) =
      ⟨false, false, 560#16, if b then 1680#16 else 560#16, 38000#16⟩ := by
  obtain ⟨hfirst, hlast⟩ := bitPos_ne_ends f j v p
  rw [portBeat, beq_false_of_ne hfirst, beq_false_of_ne hlast]
  cases b <;> rfl

theorem flatPos_bitPos (f v : Bool) {j : BitVec 2} (p : BitVec 3) (hj : j ≠ 3) :
    flatPos (bitPos f j v p) =
      50 * f.toNat + (1 + 16 * j.toNat + 8 * v.toNat + p.toNat) := by
  obtain ⟨-, hph, hj', hv, hp⟩ := bitPos_fields f v j p hj
  simp [flatPos, hph, hj', hv, hp, seqF_bitPos, phData, phHeader]

theorem toNat_le_two {j : BitVec 2} (hj : j ≠ 3) : j.toNat ≤ 2 := by
  have hlt := j.isLt
  have hne : j.toNat ≠ 3 := fun h => hj (BitVec.eq_of_toNat_eq h)
  omega

/-- The data bit as a bit of the word: bit `23 - 8j - p`, complemented when `v` is 1 (R63, R100). -/
theorem dataBit_eq_getLsbD (cw : CmdWord) {j : BitVec 2} (v : Bool) (p : BitVec 3) (hj : j ≠ 3) :
    dataBit cw j v p = Bool.xor (cw.getLsbD (23 - 8 * j.toNat - p.toNat)) v := by
  have hj2 := toNat_le_two hj
  have hp := p.isLt
  have hidx : 16 - 8 * j.toNat + (7 - p.toNat) = 23 - 8 * j.toNat - p.toNat := by omega
  have hin : 7 - p.toNat < 8 := by omega
  rw [dataBit, sentBit_eq, wordByte_eq_extractLsb', BitVec.getLsbD_extractLsb', hidx,
    decide_eq_true hin, Bool.true_and]

/-! ### The micro-steps (R99, R100) -/

theorem exec_emitHdr (f : Bool) (s : State) :
    exec (.emitHdr f) s = offerBeat (hdrPos f) headerPair s := rfl

theorem exec_emitBit (f : Bool) (j : BitVec 2) (v : Bool) (p : BitVec 3) (s : State) :
    exec (.emitBit f j v p) s = offerBeat (bitPos f j v p) (symbol (dataBit s.cwl j v p)) s := rfl

theorem exec_emitFtr (f : Bool) (s : State) :
    exec (.emitFtr f) s = offerBeat (ftrPos f) footerPair s := rfl

/-- A beat taken before the last one, as the whole next state. -/
theorem offerBeat_advances {q q' : SeqPos} {s : State} (p : Pair)
    (hn : nextPos q = some (.goto q')) (hb : s.busy = true) (hq : s.seq = q)
    (hr : s.mediumReady = true) :
    offerBeat q p s = .next { s with
      trace := s.trace ++ [.beat (portBeat q p)], seq := q', medium := s.medium.tail } :=
  offerBeat_taken ((offers_iff s q).2 ⟨hb, hq⟩) hn hr

/-- The last beat and the publish event leave the block together, and with them the train ends. -/
theorem State.beatOut_finishTrain (s : State) (q : SeqPos) (p : Pair) :
    (s.beatOut q p).finishTrain =
      { s with
        trace := s.trace ++ [.beat (portBeat q p), .publish (stateWord s.mode s.curk s.ttemp)],
        seq := 0#9, busy := false, cwl := Config.idleWord s.draws, draws := s.draws + 1 } :=
  congrArg (fun events => { (s.beatOut q p).finishTrain with trace := events })
    (List.append_assoc s.trace _ _)

/-- A train is being sent: no reset, BUSY 1, SEQ at one of the 100 positions. -/
structure State.InTrain (s : State) : Prop where
  noReset : s.rst = false
  isBusy : s.busy = true
  seqLegal : legalPos s.seq = true

theorem offers_seq {s : State} (hb : s.busy = true) : s.offers s.seq = true :=
  (offers_iff s s.seq).2 ⟨hb, rfl⟩

theorem offeredBeat_of_pairAt {s : State} {p : Pair} (hb : s.busy = true)
    (hp : pairAt s.cwl s.seq = some p) : s.offeredBeat = some (portBeat s.seq p) := by
  simp [State.offeredBeat, hb, hp]

theorem mediumAnswered_offeredBeat (s : State) :
    s.mediumAnswered.offeredBeat = s.offeredBeat := rfl

/-- SEQ names a beat, so one stands on the transmit port. -/
theorem State.InTrain.offeredBeat_isSome {s : State} (h : s.InTrain) :
    s.offeredBeat.isSome = true := by
  obtain ⟨p, hp, -⟩ := step_busy h.noReset h.isBusy h.seqLegal
  rw [offeredBeat_of_pairAt h.isBusy hp]
  rfl

/-- With a medium that is not ready the step only uses up its answer. -/
theorem State.InTrain.step_waits {s : State} (h : s.InTrain) (hr : s.mediumReady = false) :
    step s = .next s.mediumAnswered := by
  obtain ⟨p, -, hstep⟩ := step_busy h.noReset h.isBusy h.seqLegal
  obtain ⟨n, hn⟩ := exists_nextPos h.seqLegal
  rw [hstep, offerBeat_waits (offers_seq h.isBusy) hn hr]

/-- With a ready medium the step hands over the pair of SEQ, and goes on or ends the train. -/
theorem State.InTrain.step_takes {s : State} (h : s.InTrain) (hr : s.mediumReady = true) :
    ∃ p, pairAt s.cwl s.seq = some p ∧
      ((∃ q', nextPos s.seq = some (.goto q') ∧
          step s = .next ((s.mediumAnswered.beatOut s.seq p).setSeq q')) ∨
        (nextPos s.seq = some .endOfTrain ∧
          step s = .next (s.mediumAnswered.beatOut s.seq p).finishTrain)) := by
  obtain ⟨p, hp, hstep⟩ := step_busy h.noReset h.isBusy h.seqLegal
  obtain ⟨q' | -, hn⟩ := exists_nextPos h.seqLegal
  · exact ⟨p, hp, .inl ⟨q', hn, hstep.trans (offerBeat_taken (offers_seq h.isBusy) hn hr)⟩⟩
  · exact ⟨p, hp, .inr ⟨hn, hstep.trans (offerBeat_last (offers_seq h.isBusy) hn hr)⟩⟩

/-! ### The run to the end of a train (R102) -/

/-- The medium is ready for every coming beat. -/
structure State.MediumTakesAll (s : State) : Prop where
  listed : ∀ a, a ∈ s.medium → a = true
  level : s.mediumLevel = true

theorem State.MediumTakesAll.ready {s : State} (h : s.MediumTakesAll) : s.mediumReady = true :=
  mediumReady_of_all h.listed h.level

theorem State.MediumTakesAll.mediumAnswered {s : State} (h : s.MediumTakesAll) :
    s.mediumAnswered.MediumTakesAll :=
  ⟨fun a ha => h.listed a (List.mem_of_mem_tail ha), h.level⟩

/-- `t` is where the train of `s` ends: the rest of the train has left the block, then the state
word, and the block is idle with MODE and TTEMP unchanged. -/
structure State.TrainEndsAt (s t : State) : Prop where
  trace : t.trace = s.trace ++ (trainEvents s.cwl).drop (flatPos s.seq) ++
    [.publish (stateWord s.mode s.curk s.ttemp)]
  idle : t.busy = false
  seqZero : t.seq = 0#9
  mode : t.mode = s.mode
  ttemp : t.ttemp = s.ttemp

/-- A beat that is not the last takes the block to the next beat of the same train. -/
theorem State.TrainEndsAt.of_taken {s t : State} {q' : SeqPos} {p : Pair}
    (hl : legalPos s.seq = true) (hp : pairAt s.cwl s.seq = some p)
    (hflat : flatPos q' = flatPos s.seq + 1)
    (h : ((s.mediumAnswered.beatOut s.seq p).setSeq q').TrainEndsAt t) : s.TrainEndsAt t where
  trace := by
    rw [h.trace, trainEvents_drop s.cwl s.seq p hl hp, ← hflat]
    exact congrArg (· ++ [Event.publish (stateWord s.mode s.curk s.ttemp)])
      (List.append_assoc s.trace [.beat (portBeat s.seq p)] ((trainEvents s.cwl).drop (flatPos q')))
  idle := h.idle
  seqZero := h.seqZero
  mode := h.mode
  ttemp := h.ttemp

/-- The last beat ends the train. -/
theorem State.TrainEndsAt.of_last {s : State} {p : Pair} (hl : legalPos s.seq = true)
    (hp : pairAt s.cwl s.seq = some p) (hflat : flatPos s.seq = 99) :
    s.TrainEndsAt (s.mediumAnswered.beatOut s.seq p).finishTrain where
  trace := by
    have hnone : (trainEvents s.cwl).drop (flatPos s.seq + 1) = [] :=
      List.drop_of_length_le (by rw [trainEvents_length, hflat])
    rw [trainEvents_drop s.cwl s.seq p hl hp, hnone]
    rfl
  idle := rfl
  seqZero := rfl
  mode := rfl
  ttemp := rfl

/-- With a medium that takes every beat, a train ends in as many steps as it has beats left. -/
theorem State.InTrain.runSteps_to_end {k : Nat} {s : State} (h : s.InTrain)
    (hm : s.MediumTakesAll) (hk : k + flatPos s.seq = 100) :
    ∃ t, runSteps k s = .next t ∧ s.TrainEndsAt t := by
  induction k generalizing s with
  | zero =>
    have hlt := flatPos_lt s.seq h.seqLegal
    omega
  | succ k ih =>
    obtain ⟨p, hp, ⟨q', hn, hstep⟩ | ⟨hn, hstep⟩⟩ := h.step_takes hm.ready
    · obtain ⟨hlegal, hflat⟩ := nextPos_goto s.seq q' hn
      have htrain : ((s.mediumAnswered.beatOut s.seq p).setSeq q').InTrain :=
        ⟨h.noReset, h.isBusy, hlegal⟩
      have hmedium : ((s.mediumAnswered.beatOut s.seq p).setSeq q').MediumTakesAll :=
        ⟨hm.mediumAnswered.listed, hm.level⟩
      obtain ⟨t, hrun, hend⟩ := ih htrain hmedium (by rw [State.setSeq_seq, hflat]; omega)
      exact ⟨t, (runSteps_succ hstep).trans hrun, .of_taken h.seqLegal hp hflat hend⟩
    · have hflat := (nextPos_end_iff_flatPos h.seqLegal).1 hn
      obtain rfl : k = 0 := by omega
      exact ⟨_, runSteps_succ hstep, .of_last h.seqLegal hp hflat⟩

end Sys2Proof.Machine

namespace Sys2Proof.Proofs

open Sys2Proof Sys2Proof.Machine

/-- Settles O19, by the symbols of the bits and their opposites. -/
theorem sendByteThenComplement : Obligations.SendByteThenComplement := by
  intro b s
  refine ⟨sendBytePairs b, exec_sendByte b s, sendBytePairs_length b, sendBytePairs_duration b,
    fun p hp => ⟨?_, ?_⟩⟩
  · rw [sendBytePairs_getElem?_byte b hp, symbol_eq]
  · rw [sendBytePairs_getElem?_complement b hp, symbol_eq]
    cases b.getLsbD (7 - p) <;> rfl

/-- Settles O24: the beats of the request carry the pairs of TRAIN whole. -/
theorem xmitIsOneTransmitRequest : Obligations.XmitIsOneTransmitRequest := by
  intro cw s
  refine ⟨requestBeats carrierHz (trainPairs cw), trainPairs cw, exec_xmit cw s, exec_train cw s,
    ?_, trainBeats_map_pair cw, fun n b hb => trainBeats_flags hb⟩
  rw [requestBeats_length, trainPairs_length]

/-- Settles O25, line by line. -/
theorem nextFollowsItsSevenLines : Obligations.NextFollowsItsSevenLines := by
  intro f v j p s hj
  refine ⟨?_, fun hp => ?_, ?_, fun hj2 => ?_, ?_, ?_, ?_⟩
  · exact exec_next_goto s (nextPos_hdrPos f)
  · exact exec_next_goto s ((nextPos_bitPos f v p hj).trans (by rw [if_pos hp]; rfl))
  · exact exec_next_goto s (nextPos_bitPos f false 7 hj)
  · exact exec_next_goto s ((nextPos_bitPos f true 7 hj).trans (by
      rw [if_neg (by decide), if_neg (by decide), if_pos hj2]; rfl))
  · exact exec_next_goto s (nextPos_bitPos f true 7 (by decide))
  · exact exec_next_goto s nextPos_ftrPos_false
  · exact exec_next_end s nextPos_ftrPos_true

/-- Settles O26, by the flat number of a position and of its successor. -/
theorem nextCountsTheBeats : Obligations.NextCountsTheBeats := by
  intro q s
  refine ⟨fun hl hlt => ?_, fun hl hge => ?_, fun hl => ?_⟩
  · obtain ⟨q', hn, hnext⟩ := nextPos_of_flatPos_lt hl hlt
    exact ⟨q', exec_next_goto s hn, hnext⟩
  · have hlt := flatPos_lt q hl
    have hflat : flatPos q = 99 := by omega
    exact ⟨exec_next_end s ((nextPos_end_iff_flatPos hl).2 hflat), hflat⟩
  · exact exec_next_refused s (nextPos_of_illegal hl)

/-- Settles O28: a data position is never the last of the train, so it has a successor. -/
theorem dataBeatTaken : Obligations.DataBeatTaken := by
  intro f v j p s hj hb hq hr
  obtain ⟨hlegal, -⟩ := bitPos_fields f v j p hj
  have hflat := flatPos_bitPos f v p hj
  have hlt : flatPos (bitPos f j v p) < 99 := by
    have hf := f.toNat_le
    have hv := v.toNat_le
    have hj2 := toNat_le_two hj
    have hp := p.isLt
    omega
  obtain ⟨q', hn, hlegal', hflat'⟩ := nextPos_of_flatPos_lt hlegal hlt
  refine ⟨q', hlegal', by omega, ?_⟩
  rw [exec_emitBit, offerBeat_advances _ hn hb hq hr, portBeat_bitPos,
    dataBit_eq_getLsbD s.cwl v p hj]

/-- Settles O31: the step waits, and neither SEQ nor CWL moves. -/
theorem offeredBeatIsHeld : Obligations.OfferedBeatIsHeld := by
  intro s hrst hb hl hr
  have htrain : s.InTrain := ⟨hrst, hb, hl⟩
  exact ⟨s.mediumAnswered, htrain.step_waits hr, rfl, mediumAnswered_offeredBeat s,
    htrain.offeredBeat_isSome⟩

/-- Settles O32: the beat taken is that of the pair of SEQ, and only the footer of the repeat ends
the train. -/
theorem takenBeatIsTheOfferedOne : Obligations.TakenBeatIsTheOfferedOne := by
  intro s hrst hb hl hr
  obtain ⟨p, hp, ⟨q', -, hstep⟩ | ⟨hn, hstep⟩⟩ := State.InTrain.step_takes ⟨hrst, hb, hl⟩ hr
  · exact ⟨_, portBeat s.seq p, [], hstep, offeredBeat_of_pairAt hb hp, rfl, .inl rfl⟩
  · have hlast : (portBeat s.seq p).last = true := by
      rw [(nextPos_end s.seq).1 hn]
      rfl
    rw [State.beatOut_finishTrain] at hstep
    exact ⟨_, portBeat s.seq p, [.publish (stateWord s.mode s.curk s.ttemp)], hstep,
      offeredBeat_of_pairAt hb hp, rfl, .inr ⟨_, rfl, hlast, rfl⟩⟩

/-- Settles O34: from SEQ 0 the whole train is left, and its beats are those of the request. -/
theorem microStepsMakeTheTrain : Obligations.MicroStepsMakeTheTrain := by
  intro s hrst hb hq hm hlevel
  have htrain : s.InTrain := ⟨hrst, hb, by rw [hq]; rfl⟩
  have hflat : flatPos s.seq = 0 := by rw [hq]; rfl
  obtain ⟨t, hrun, hend⟩ := htrain.runSteps_to_end (k := 100) ⟨hm, hlevel⟩ (by rw [hflat])
  refine ⟨t, requestBeats carrierHz (trainPairs s.cwl), trainPairs s.cwl,
    stateWord s.mode s.curk s.ttemp, hrun, ?_, exec_train s.cwl s, trainBeats_map_pair s.cwl,
    exec_xmit s.cwl s, hend.idle, hend.seqZero, hend.mode, hend.ttemp⟩
  rw [hend.trace, hflat, List.drop_zero]
  rfl

/-- Settles O20: the bytes of the word are its bits 23:16, 15:8 and 7:0. -/
theorem payloadIsThreeSendBytes : Obligations.PayloadIsThreeSendBytes := by
  intro cw s
  refine ⟨payloadPairs cw, exec_payload cw s, payloadPairs_length cw, ?_⟩
  rw [payloadPairs, wordByte_eq_extractLsb', wordByte_eq_extractLsb', wordByte_eq_extractLsb',
    List.append_assoc]
  exact execAll_cons_of_emits (exec_sendByte _ _) <|
    execAll_cons_of_emits (exec_sendByte _ _) (execAll_singleton (exec_sendByte _ _))

/-- Settles O21, by appending the three parts one after the other. -/
theorem frameIsHeaderPayloadFooter : Obligations.FrameIsHeaderPayloadFooter := by
  intro cw s
  refine ⟨framePairs cw, exec_frame cw s, framePairs_length cw, ?_⟩
  rw [framePairs, List.append_assoc]
  exact execAll_cons_of_emits (exec_symHdr s) <|
    execAll_cons_of_emits (exec_payload cw _) (execAll_singleton (exec_symFtr _))

/-- Settles O22, by the definition of TRAIN and its pairs at the two ends. -/
theorem trainIsTwoFramesOfFiftyPairs : Obligations.TrainIsTwoFramesOfFiftyPairs := by
  intro cw s
  exact ⟨trainPairs cw, framePairs cw, exec_train cw s, exec_frame cw s, rfl, framePairs_length cw,
    trainPairs_length cw, trainPairs_first cw, trainPairs_last cw⟩

/-- Settles O27: the offered beat is taken, and a header is followed by the first data bit. -/
theorem headerBeatTaken : Obligations.HeaderBeatTaken := by
  intro f s hb hq hr
  rw [exec_emitHdr, offerBeat_advances _ (nextPos_hdrPos f) hb hq hr, portBeat_hdrPos]
  rfl

/-- Settles O29: the offered beat is taken, and this footer is followed by the repeat. -/
theorem firstFooterBeatTaken : Obligations.FirstFooterBeatTaken := by
  intro s hb hq hr
  rw [exec_emitFtr, offerBeat_advances _ nextPos_ftrPos_false hb hq hr, portBeat_ftrPos]
  rfl

/-- Settles O30: the offered beat is taken, and this footer ends the train. -/
theorem lastBeatPublishesAndEnds : Obligations.LastBeatPublishesAndEnds := by
  intro s hb hq hr
  have hoffers : s.offers (ftrPos true) = true := (offers_iff s _).2 ⟨hb, hq⟩
  refine ⟨_, (exec_emitFtr true s).trans (offerBeat_last hoffers nextPos_ftrPos_true hr), ?_⟩
  rw [State.beatOut_finishTrain, portBeat_ftrPos]
  rfl

end Sys2Proof.Proofs

/-!
SUPPORT. The host commands (44_command_interface.md): what a request word can ask for, the
capability word, what a step of a busy block leaves alone, and the trace over one step. An idle
block has a trace of whole commands; an APPLY opens with none of its beats sent, each beat taken
adds one, and the last beat closes the command together with its publish event.
-/

namespace Sys2Proof.Machine

/-! ### The requests and the capability word (R58, R110) -/

/-- A request word asks for one of the four host commands. -/
theorem decodeReq_command {w : PortWord} {i : Instr} (h : decodeReq w = .ok i) :
    (∃ prior, i = .init prior) ∨ (∃ m τ, i = .apply m τ) ∨ i = .state ∨ i = .caps := by
  obtain ⟨-, ⟨-, hinit⟩ | ⟨-, happly⟩ | ⟨-, hstate⟩ | ⟨-, hcaps⟩⟩ := decodeReq_ok h
  · exact .inl ⟨_, hinit⟩
  · exact .inr (.inl ⟨_, _, happly⟩)
  · exact .inr (.inr (.inl hstate))
  · exact .inr (.inr (.inr hcaps))

theorem capsWord_capBits (cool heat : Bool) :
    capsWord (capBits cool heat) =
      0#10 ++ 0b11#2 ++ BitVec.ofBool cool ++ BitVec.ofBool heat ++ 0b00#2 := by
  cases cool <;> cases heat <;> rfl

/-! ### What a step of a busy block leaves alone (R108, R136) -/

/-- A step from BUSY 1 is one beat: that of the pair that SEQ names (R61, R99). -/
theorem step_next_of_busy {s t : State} (hb : s.busy = true) (h : step s = .next t) :
    ∃ p, pairAt s.cwl s.seq = some p ∧ offerBeat s.seq p s = .next t := by
  obtain ⟨-, i, hd, he⟩ : s.rst = false ∧ ∃ i, decodeSeq s.seq = .ok i ∧ exec i s = .next t := by
    simpa [hb] using step_next h
  obtain ⟨p, hp, hoffer⟩ := exec_of_decodeSeq hd
  exact ⟨p, hp, hoffer ▸ he⟩

/-- A beat touches neither the inputs of the host nor the climate; only the last one touches CWL. -/
theorem offerBeat_frame {q : SeqPos} {p : Pair} {s t : State} (h : offerBeat q p s = .next t) :
    t.host = s.host ∧ t.mode = s.mode ∧ t.ttemp = s.ttemp ∧ t.curk = s.curk ∧
      t.bench = s.bench ∧ t.pulses = s.pulses ∧ (t.busy = true → t.cwl = s.cwl) := by
  obtain ⟨-, -, ⟨-, rfl⟩ | ⟨q', -, -, rfl⟩ | ⟨-, -, rfl⟩⟩ := offerBeat_next h
  · exact ⟨rfl, rfl, rfl, rfl, rfl, rfl, fun _ => rfl⟩
  · exact ⟨rfl, rfl, rfl, rfl, rfl, rfl, fun _ => rfl⟩
  · exact ⟨rfl, rfl, rfl, rfl, rfl, rfl, nofun⟩

/-! ### The trace of an idle block (R112) -/

theorem beatsInProgress_idle {s : State} (hb : s.busy = false) : s.beatsInProgress = [] := by
  simp [State.beatsInProgress, hb]

theorem beatsInProgress_busy {s : State} (hb : s.busy = true) :
    s.beatsInProgress = (trainEvents s.cwl).take (flatPos s.seq) := by
  simp [State.beatsInProgress, hb]

/-- While BUSY is 0 the trace is whole commands and nothing else. -/
theorem State.TraceInv.of_idle {s : State} (hbench : s.bench = none) (hb : s.busy = false)
    (hw : WholeCommands s.trace) : s.TraceInv :=
  ⟨hbench, s.trace, hw, by rw [beatsInProgress_idle hb, List.append_nil]⟩

theorem State.TraceInv.trace_of_idle {s : State} (h : s.TraceInv) (hb : s.busy = false) :
    WholeCommands s.trace := by
  obtain ⟨done, hdone, htrace⟩ := h.wholeCommands
  rwa [htrace, beatsInProgress_idle hb, List.append_nil]

@[simp] theorem State.loadPrior_bench (s : State) (prior : Option (Mode × Temp)) :
    (s.loadPrior prior).bench = s.bench := by cases prior <;> rfl

/-- An accepted APPLY has sent none of its beats yet (R106 steps 1 to 3). -/
theorem State.TraceInv.startApply {s : State} (h : s.TraceInv) (hb : s.busy = false)
    (m : Option Mode) (τ : Option Temp) : (s.startApply m τ).TraceInv where
  noBench := h.noBench
  wholeCommands := by
    have hflat : flatPos 0#9 = 0 := rfl
    refine ⟨s.trace, h.trace_of_idle hb, ?_⟩
    rw [beatsInProgress_busy (startApply_busy s m τ), startApply_seq, hflat, List.take_zero,
      List.append_nil, startApply_trace]

/-- A host command accepted while BUSY is 0 keeps the trace of whole commands: INIT lets nothing out,
STATE and CAPS one response each, and an APPLY begins. -/
theorem exec_request_keeps_traceInv {w : PortWord} {i : Instr} {s t : State} (hi : s.Inv)
    (hs : s.TraceInv) (hb : s.busy = false) (hd : decodeReq w = .ok i) (h : exec i s = .next t) :
    t.TraceInv := by
  have hw := hs.trace_of_idle hb
  obtain ⟨prior, rfl⟩ | ⟨m, τ, rfl⟩ | rfl | rfl := decodeReq_command hd
  · obtain rfl := Host.Outcome.next.inj ((exec_init_idle hb prior).symm.trans h)
    exact .of_idle ((s.loadPrior_bench prior).trans hs.noBench) (by rw [State.loadPrior_busy, hb])
      (by rwa [State.loadPrior_trace])
  · obtain rfl := Host.Outcome.next.inj ((exec_apply_idle hb m τ).symm.trans h)
    exact hs.startApply hb m τ
  · obtain rfl := Host.Outcome.next.inj ((exec_state_idle hb).symm.trans h)
    rw [hi.curkUnknown]
    exact .of_idle hs.noBench hb (.response s.trace s.mode s.ttemp hw)
  · obtain rfl := Host.Outcome.next.inj ((exec_caps_idle hb).symm.trans h)
    exact .of_idle hs.noBench hb (.capsResponse s.trace hw)

/-! ### The trace of a busy block (R106, R112) -/

theorem beatsInProgress_append_beat {s : State} {p : Pair} (hb : s.busy = true)
    (hl : legalPos s.seq = true) (hp : pairAt s.cwl s.seq = some p) :
    s.beatsInProgress ++ [.beat (portBeat s.seq p)] =
      (trainEvents s.cwl).take (flatPos s.seq + 1) := by
  rw [beatsInProgress_busy hb, trainEvents_take_succ s.cwl s.seq p hl hp]

/-- A beat taken before the last one is one more beat in progress. -/
theorem State.TraceInv.beat_taken {s : State} {p : Pair} {q' : SeqPos} (h : s.TraceInv)
    (hb : s.busy = true) (hl : legalPos s.seq = true) (hp : pairAt s.cwl s.seq = some p)
    (hflat : flatPos q' = flatPos s.seq + 1) :
    ((s.mediumAnswered.beatOut s.seq p).setSeq q').TraceInv where
  noBench := h.noBench
  wholeCommands := by
    obtain ⟨done, hdone, htrace⟩ := h.wholeCommands
    refine ⟨done, hdone, ?_⟩
    calc s.trace ++ [.beat (portBeat s.seq p)]
        = done ++ (s.beatsInProgress ++ [.beat (portBeat s.seq p)]) := by
          rw [htrace, List.append_assoc]
      _ = done ++ (trainEvents s.cwl).take (flatPos q') := by
          rw [beatsInProgress_append_beat hb hl hp, hflat]
      _ = done ++ ((s.mediumAnswered.beatOut s.seq p).setSeq q').beatsInProgress :=
          congrArg (done ++ ·) (beatsInProgress_busy (s := State.setSeq _ q') hb).symm

/-- The last beat makes the 100 beats of the APPLY whole, and its publish word is that of the MODE
and TTEMP from which the word was composed. -/
theorem applyEvents_of_last {s : State} {p : Pair} (hi : s.Inv) (hb : s.busy = true)
    (hp : pairAt s.cwl s.seq = some p) (hflat : flatPos s.seq = 99) :
    s.beatsInProgress ++
        [.beat (portBeat s.seq p), .publish (stateWord s.mode s.curk s.ttemp)] =
      applyEvents s.mode s.ttemp := by
  have hwhole : s.beatsInProgress ++ [.beat (portBeat s.seq p)] = trainEvents s.cwl := by
    rw [beatsInProgress_append_beat hb hi.seqLegal hp, hflat,
      List.take_of_length_le (by rw [trainEvents_length])]
  rw [applyEvents, ← hi.wordLatched hb, ← hwhole, hi.curkUnknown, List.append_assoc]
  rfl

/-- The last beat completes the APPLY (R106 step 5). -/
theorem State.TraceInv.last_beat {s : State} {p : Pair} (h : s.TraceInv) (hi : s.Inv)
    (hb : s.busy = true) (hp : pairAt s.cwl s.seq = some p) (hflat : flatPos s.seq = 99) :
    (s.mediumAnswered.beatOut s.seq p).finishTrain.TraceInv := by
  obtain ⟨done, hdone, htrace⟩ := h.wholeCommands
  refine .of_idle h.noBench (State.finishTrain_busy _) ?_
  have hend : (s.mediumAnswered.beatOut s.seq p).finishTrain.trace =
      s.trace ++ [.beat (portBeat s.seq p), .publish (stateWord s.mode s.curk s.ttemp)] :=
    congrArg State.trace (State.beatOut_finishTrain s.mediumAnswered s.seq p)
  rw [hend, htrace, List.append_assoc, applyEvents_of_last hi hb hp hflat]
  exact .applied done s.mode s.ttemp hdone

/-- A beat keeps the trace: waiting adds nothing, a beat taken is the next one of the train, and the
last one completes the APPLY. -/
theorem offerBeat_keeps_traceInv {p : Pair} {s t : State} (hi : s.Inv) (hs : s.TraceInv)
    (hp : pairAt s.cwl s.seq = some p) (h : offerBeat s.seq p s = .next t) : t.TraceInv := by
  obtain ⟨hb, -, ⟨-, rfl⟩ | ⟨q', -, hn, rfl⟩ | ⟨-, hn, rfl⟩⟩ := offerBeat_next h
  · exact ⟨hs.noBench, hs.wholeCommands⟩
  · obtain ⟨-, hflat⟩ := nextPos_goto s.seq q' hn
    exact hs.beat_taken hb hi.seqLegal hp hflat
  · exact hs.last_beat hi hb hp ((nextPos_end_iff_flatPos hi.seqLegal).1 hn)

/-- R112, R44: the trace over one step, by what the step did. -/
theorem step_keeps_traceInv {s t : State} (hi : s.Inv) (hs : s.TraceInv) (h : step s = .next t) :
    t.TraceInv := by
  rcases step_next h with ⟨-, hb, rfl⟩ | ⟨-, hb, -⟩ | ⟨-, -, b, i, hbench, -⟩ |
    ⟨-, -, -, -, rfl⟩ | ⟨-, hb, -, rest, -, rfl⟩ | ⟨-, hb, -, w, rest, i, -, hd, he⟩
  · exact .of_idle hs.noBench (State.takeReset_busy s) (hs.trace_of_idle hb)
  · obtain ⟨p, hp, he⟩ := step_next_of_busy hb h
    exact offerBeat_keeps_traceInv hi hs hp he
  · rw [hs.noBench] at hbench; cases hbench
  · exact hs
  · exact ⟨hs.noBench, hs.wholeCommands⟩
  · exact exec_request_keeps_traceInv (hi.setHost rest) ⟨hs.noBench, hs.wholeCommands⟩ hb hd he

end Sys2Proof.Machine

namespace Sys2Proof.Proofs

open Sys2Proof Sys2Proof.Machine

/-- Settles O51, by what a step can do. -/
theorem stepKeepsTheTraceOfWholeCommands : Obligations.StepKeepsTheTraceOfWholeCommands :=
  fun _ _ hi hs h => step_keeps_traceInv hi hs h

/-- Settles O41: what has a request word is one of the four host commands, and each is held. -/
theorem requestIsHeldWhileBusy : Obligations.RequestIsHeldWhileBusy := by
  intro i w s hb h
  obtain ⟨prior, rfl⟩ | ⟨m, τ, rfl⟩ | rfl | rfl := decodeReq_command (decodeReq_of_encode h)
  · cases h; exact exec_init_busy hb prior
  · cases h; exact exec_apply_busy hb m τ
  · cases h; exact exec_state_busy hb
  · cases h; exact exec_caps_busy hb

/-- Settles O42: a step of a busy block is one beat. -/
theorem nothingIntrudesOnAnApply : Obligations.NothingIntrudesOnAnApply := by
  intro s t hb h
  obtain ⟨p, -, hoffer⟩ := step_next_of_busy hb h
  exact offerBeat_frame hoffer

/-- Settles O37: the two forms of INIT; the default is the next free draw. -/
theorem initLoadsStateOrDefault : Obligations.InitLoadsStateOrDefault :=
  fun m t _ hb => ⟨exec_init_idle hb (some (m, t)), _, exec_init_idle hb none⟩

/-- Settles O38: the word latched is the one that COMPOSE answers for the updated climate. -/
theorem applyUpdatesThenComposes : Obligations.ApplyUpdatesThenComposes := by
  intro m t s hb
  refine ⟨composeWord (m.getD s.mode) (sint8 (t.getD s.ttemp)), ?_, exec_apply_idle hb m t⟩
  exact (exec_compose _ _ s).trans (exec_composition _ _ s)

/-- Settles O39: the response is the state word. -/
theorem stateRespondsTheState : Obligations.StateRespondsTheState :=
  fun _ hb => exec_state_idle hb

/-- Settles O40: the response is the capability word, whatever the two open parameters are. -/
theorem capsRespondsTheCapabilities : Obligations.CapsRespondsTheCapabilities := by
  intro s hb
  rw [← capsWord_capBits]
  exact exec_caps_idle hb

end Sys2Proof.Proofs

/-!
SUPPORT. Exceptions (60_exceptions.md): the block raises none, so a step goes on wherever the model
gives a meaning. The progress of each kind of step is a lemma: a beat offered and a host command on
the port.
-/

namespace Sys2Proof.Machine

/-- R67: only bits 9:8 can reject a request. -/
theorem decodeReq_accepts {w : PortWord} (h : w.extractLsb' 8 2 = 0#2) :
    ∃ i, decodeReq w = .ok i := by
  cases hd : decodeReq w with
  | ok i => exact ⟨i, rfl⟩
  | error r => exact absurd h ((decodeReq_err w).1 ⟨r, hd⟩)

/-- An idle block completes every host command that the port can decode (R108). -/
theorem exec_request_completes {w : PortWord} {i : Instr} {s : State} (hb : s.busy = false)
    (hd : decodeReq w = .ok i) : ∃ t, exec i s = .next t := by
  obtain ⟨prior, rfl⟩ | ⟨m, τ, rfl⟩ | rfl | rfl := decodeReq_command hd
  · exact ⟨_, exec_init_idle hb prior⟩
  · exact ⟨_, exec_apply_idle hb m τ⟩
  · exact ⟨_, exec_state_idle hb⟩
  · exact ⟨_, exec_caps_idle hb⟩

/-- In a train the block goes on whatever the medium answers: it waits, or it hands over the beat
(R99, R100). -/
theorem State.InTrain.step_completes {s : State} (h : s.InTrain) : ∃ t, step s = .next t := by
  cases hr : s.mediumReady with
  | false => exact ⟨_, h.step_waits hr⟩
  | true =>
    obtain ⟨p, -, ⟨q', -, hstep⟩ | ⟨-, hstep⟩⟩ := h.step_takes hr
    · exact ⟨_, hstep⟩
    · exact ⟨_, hstep⟩

/-- With nothing offered an idle block stays as it is (R130, R132). -/
theorem step_quiet {s : State} (hr : s.rst = false) (hb : s.busy = false) (hs : s.bench = none)
    (hh : s.host = []) : step s = .next s :=
  step_of_hold (fetch_quiet hr hb hs hh)

/-- An idle move of the host is used up and nothing else changes (R132). -/
theorem step_hostIdle {s : State} {rest : List HostMove} (hr : s.rst = false)
    (hb : s.busy = false) (hs : s.bench = none) (hh : s.host = .idle :: rest) :
    step s = .next (s.setHost rest) :=
  step_of_hold (fetch_idle hr hb hs hh)

/-- An idle block takes every request that is not reserved (R67, R108). -/
theorem step_offer_completes {s : State} {w : PortWord} {rest : List HostMove}
    (hr : s.rst = false) (hb : s.busy = false) (hs : s.bench = none)
    (hh : s.host = .offer w :: rest) (hw : w.extractLsb' 8 2 = 0#2) :
    ∃ t, step s = .next t := by
  obtain ⟨i, hd⟩ := decodeReq_accepts hw
  rw [step_of_run ((fetch_offer hr hb hs hh).trans (runDecoded_ok hd (s.setHost rest)))]
  exact exec_request_completes (s := s.setHost rest) hb hd

end Sys2Proof.Machine

namespace Sys2Proof.Proofs

open Sys2Proof Sys2Proof.Machine

/-- Settles O52, by what the fetch looks at in turn: the reset line, BUSY, the host's next move. -/
theorem stepAlwaysAnswersNext : Obligations.StepAlwaysAnswersNext := by
  intro s hi hs hreset hoffer
  cases hr : s.rst with
  | true => exact ⟨_, step_of_hold (fetch_reset hr (hreset hr))⟩
  | false =>
    cases hb : s.busy with
    | true => exact State.InTrain.step_completes ⟨hr, hb, hi.seqLegal⟩
    | false =>
      match hh : s.host with
      | [] => exact ⟨_, step_quiet hr hb hs hh⟩
      | .idle :: rest => exact ⟨_, step_hostIdle hr hb hs hh⟩
      | .offer w :: rest => exact step_offer_completes hr hb hs hh (hoffer w rest hh)

/-- Settles O45: the fetch holds the state, with the idle move used up where there is one. -/
theorem idleStepRetainsEverything : Obligations.IdleStepRetainsEverything :=
  fun _ _ hr hb hs => ⟨step_quiet hr hb hs, step_hostIdle hr hb hs⟩

end Sys2Proof.Proofs

/-!
SUPPORT. Reset and hazards (70_reset_and_hazards.md): how long a train lasts, how a train runs under
a medium that is late or never ready, the whole run of an APPLY, and when a reset takes effect.
-/

namespace Sys2Proof.Machine

/-! ### Durations of a frame and of a train (R146) -/

/-- The total duration of the marks of a sequence of pairs, in microseconds. -/
def markDuration (ps : List Pair) : Nat := (ps.map Pair.mark).sum

theorem markDuration_append (ps qs : List Pair) :
    markDuration (ps ++ qs) = markDuration ps + markDuration qs := by
  simp [markDuration]

/-- The mark of a data bit does not depend on the bit (R56). -/
theorem markDuration_symbols (bits : List Bool) :
    markDuration (bits.map symbol) = 560 * bits.length := by
  induction bits with
  | nil => rfl
  | cons b bits ih =>
    have hmark : (symbol b).mark = 560 := by rw [symbol_eq]
    simp only [markDuration, List.map_cons, List.sum_cons, List.length_cons] at ih ⊢
    omega

theorem sendBytePairs_markDuration (b : BitVec 8) : markDuration (sendBytePairs b) = 8960 := by
  rw [sendBytePairs_eq_map, markDuration_append, markDuration_symbols, markDuration_symbols,
    List.length_map, serBits_length]

theorem framePairs_duration (cw : CmdWord) : totalDuration (framePairs cw) = 95200 := by
  have hheader : totalDuration [headerPair] = 8960 := rfl
  have hfooter : totalDuration [footerPair] = 5600 := rfl
  simp only [framePairs, payloadPairs, totalDuration_append, sendBytePairs_duration, hheader,
    hfooter]

theorem framePairs_markDuration (cw : CmdWord) : markDuration (framePairs cw) = 31920 := by
  have hheader : markDuration [headerPair] = 4480 := rfl
  have hfooter : markDuration [footerPair] = 560 := rfl
  simp only [framePairs, payloadPairs, markDuration_append, sendBytePairs_markDuration, hheader,
    hfooter]

theorem trainPairs_duration (cw : CmdWord) : totalDuration (trainPairs cw) = 190400 := by
  rw [trainPairs, totalDuration_append, framePairs_duration]

theorem trainPairs_markDuration (cw : CmdWord) : markDuration (trainPairs cw) = 63840 := by
  rw [trainPairs, markDuration_append, framePairs_markDuration]

/-! ### A train under a medium that is not always ready (R141) -/

/-- A medium that is ready after its listed answers can be not ready only by a listed answer, and
the wait uses that answer up. -/
theorem mediumAnswered_length_of_waits {s : State} (hl : s.mediumLevel = true)
    (hr : s.mediumReady = false) : s.mediumAnswered.medium.length + 1 = s.medium.length := by
  cases hm : s.medium with
  | nil => rw [mediumReady_nil hm, hl] at hr; cases hr
  | cons a as => rw [State.mediumAnswered_medium, hm]; rfl

theorem mediumAnswered_length_le (s : State) :
    s.mediumAnswered.medium.length ≤ s.medium.length := by
  rw [State.mediumAnswered_medium, List.length_tail]
  exact Nat.sub_le _ _

/-- A wait moves neither the train nor its end. -/
theorem State.TrainEndsAt.of_waited {s t : State} (h : s.mediumAnswered.TrainEndsAt t) :
    s.TrainEndsAt t :=
  ⟨h.trace, h.idle, h.seqZero, h.mode, h.ttemp⟩

/-- With a medium that is ready after its listed answers, a train ends within one step for each beat
left and each listed answer, with the host's offers untouched: a step either takes a beat or uses up
an answer. -/
theorem State.InTrain.ends_within {k : Nat} {s : State} (h : s.InTrain)
    (hl : s.mediumLevel = true) (hk : 100 + s.medium.length ≤ k + flatPos s.seq) :
    ∃ n t, n ≤ k ∧ runSteps n s = .next t ∧ s.TrainEndsAt t ∧ t.host = s.host := by
  induction k generalizing s with
  | zero =>
    have hlt := flatPos_lt s.seq h.seqLegal
    omega
  | succ k ih =>
    cases hr : s.mediumReady with
    | false =>
      have hlength := mediumAnswered_length_of_waits hl hr
      have htrain : s.mediumAnswered.InTrain := ⟨h.noReset, h.isBusy, h.seqLegal⟩
      obtain ⟨n, t, hn, hrun, hend, hhost⟩ :=
        ih htrain hl (by rw [State.mediumAnswered_seq]; omega)
      exact ⟨n + 1, t, Nat.succ_le_succ hn, (runSteps_succ (h.step_waits hr)).trans hrun,
        hend.of_waited, hhost⟩
    | true =>
      obtain ⟨p, hp, ⟨q', hnext, hstep⟩ | ⟨hnext, hstep⟩⟩ := h.step_takes hr
      · obtain ⟨hlegal, hflat⟩ := nextPos_goto s.seq q' hnext
        have hlength := mediumAnswered_length_le s
        have htrain : ((s.mediumAnswered.beatOut s.seq p).setSeq q').InTrain :=
          ⟨h.noReset, h.isBusy, hlegal⟩
        have hbound : 100 + s.mediumAnswered.medium.length ≤ k + flatPos q' := by omega
        obtain ⟨n, t, hn, hrun, hend, hhost⟩ := ih htrain hl hbound
        exact ⟨n + 1, t, Nat.succ_le_succ hn, (runSteps_succ hstep).trans hrun,
          .of_taken h.seqLegal hp hflat hend, hhost⟩
      · have hflat := (nextPos_end_iff_flatPos h.seqLegal).1 hnext
        exact ⟨1, _, Nat.succ_le_succ k.zero_le, runSteps_succ hstep, .of_last h.seqLegal hp hflat,
          rfl⟩

/-- The medium is not ready for any coming beat. -/
structure State.MediumTakesNone (s : State) : Prop where
  listed : ∀ a, a ∈ s.medium → a = false
  level : s.mediumLevel = false

theorem State.MediumTakesNone.notReady {s : State} (h : s.MediumTakesNone) :
    s.mediumReady = false :=
  mediumReady_of_all h.listed h.level

theorem State.MediumTakesNone.mediumAnswered {s : State} (h : s.MediumTakesNone) :
    s.mediumAnswered.MediumTakesNone :=
  ⟨fun a ha => h.listed a (List.mem_of_mem_tail ha), h.level⟩

/-- With a medium that takes no beat, any number of steps only uses up its listed answers. -/
theorem State.InTrain.runSteps_waits (n : Nat) {s : State} (h : s.InTrain)
    (hm : s.MediumTakesNone) :
    runSteps n s = .next { s with medium := s.medium.drop n } := by
  induction n generalizing s with
  | zero => rfl
  | succ n ih =>
    have htrain : s.mediumAnswered.InTrain := ⟨h.noReset, h.isBusy, h.seqLegal⟩
    rw [runSteps_succ (h.step_waits hm.notReady), ih htrain hm.mediumAnswered,
      State.mediumAnswered_medium, List.drop_tail]
    rfl

/-! ### The whole run of an APPLY (R106, R137) -/

theorem applyEvents_length (m : Mode) (t : Temp) : (applyEvents m t).length = 101 := by
  rw [applyEvents, List.length_append, trainEvents_length]
  rfl

/-- From an idle block, with a medium that takes every beat, an APPLY and 100 steps let out events
that only the MODE and TTEMP of its update decide. -/
theorem apply_runs_to_end {s : State} (hb : s.busy = false) (hr : s.rst = false)
    (hm : s.MediumTakesAll) (m : Option Mode) (τ : Option Temp) :
    ∃ a t, exec (.apply m τ) s = .next a ∧ runSteps 100 a = .next t ∧
      t.trace = s.trace ++ applyEvents (m.getD s.mode) (τ.getD s.ttemp) ∧ t.busy = false := by
  have htrain : (s.startApply m τ).InTrain := ⟨hr, rfl, (s.startApply_inv m τ).seqLegal⟩
  have hflat : flatPos (s.startApply m τ).seq = 0 := by rw [State.startApply_seq]; rfl
  obtain ⟨t, hrun, hend⟩ :=
    htrain.runSteps_to_end (k := 100) ⟨hm.listed, hm.level⟩ (by rw [hflat])
  refine ⟨_, t, exec_apply_idle hb m τ, hrun, ?_, hend.idle⟩
  rw [hend.trace, hflat, List.drop_zero, List.append_assoc]
  rfl

/-! ### Reset (R124, R131) -/

theorem step_reset_idle {s : State} (hr : s.rst = true) (hb : s.busy = false) :
    step s = .next s.takeReset :=
  step_of_hold (fetch_reset hr hb)

theorem step_reset_busy {s : State} (hr : s.rst = true) (hb : s.busy = true) :
    step s = .refused .resetWhileBusy :=
  step_of_stop (fetch_reset_busy hr hb)

end Sys2Proof.Machine

namespace Sys2Proof.Proofs

open Sys2Proof Sys2Proof.Machine

/-- Settles O23: every byte and its complement last the same time whatever the byte, and so do their
marks. -/
theorem trainLastsFixedTime : Obligations.TrainLastsFixedTime :=
  fun cw s => ⟨trainPairs cw, framePairs cw, exec_train cw s, exec_frame cw s,
    framePairs_duration cw, trainPairs_duration cw, trainPairs_markDuration cw⟩

/-- Settles O35: every step takes a beat or uses up one of the listed answers. -/
theorem everyApplyEnds : Obligations.EveryApplyEnds := by
  intro s hi hrst hb hl
  have htrain : s.InTrain := ⟨hrst, hb, hi.seqLegal⟩
  obtain ⟨n, t, hn, hrun, hend, hhost⟩ := htrain.ends_within hl (Nat.le_add_right _ _)
  refine ⟨n, t, hn, hrun, ?_, (portReady_iff t).2 hend.idle, hend.seqZero, hend.mode, hend.ttemp,
    hhost⟩
  rw [hend.trace, hi.curkUnknown]

/-- Settles O36: the steps change only the medium's answers, and the offered beat does not read
them. -/
theorem mediumNeverReadyHangs : Obligations.MediumNeverReadyHangs := by
  intro n s hrst hb hl hm hlevel
  have htrain : s.InTrain := ⟨hrst, hb, hl⟩
  exact ⟨_, htrain.runSteps_waits n ⟨hm, hlevel⟩, hb, rfl, rfl, rfl⟩

/-- Settles O43: both runs let out the events of the same MODE and TTEMP. -/
theorem equalStateEqualRequestEqualTrain : Obligations.EqualStateEqualRequestEqualTrain := by
  intro s₁ s₂ m τ hb₁ hb₂ hr₁ hr₂ hm₁ hm₂ hl₁ hl₂ hmode httemp
  obtain ⟨a₁, t₁, happly₁, hrun₁, htrace₁, hidle₁⟩ := apply_runs_to_end hb₁ hr₁ ⟨hm₁, hl₁⟩ m τ
  obtain ⟨a₂, t₂, happly₂, hrun₂, htrace₂, hidle₂⟩ := apply_runs_to_end hb₂ hr₂ ⟨hm₂, hl₂⟩ m τ
  rw [← hmode, ← httemp] at htrace₂
  exact ⟨a₁, a₂, t₁, t₂, _, happly₁, happly₂, hrun₁, hrun₂, applyEvents_length _ _, htrace₁,
    htrace₂, hidle₁, hidle₂⟩

/-- Settles O48, by the two answers of the fetch to the reset line. -/
theorem resetTakesEffectWhenIdle : Obligations.ResetTakesEffectWhenIdle :=
  fun _ hr => ⟨fun hb => ⟨_, _, step_reset_idle hr hb⟩, step_reset_busy hr⟩

end Sys2Proof.Proofs
